-- ==== Sys2Proof/Word.lean ====
section
/-! DEFINITION. Word.lean: the widths the spec gives to values it treats as bits (00_scope.md R6, R7).
Counts, lengths, times and arbitration IDs are naturals (R8, R10). -/

namespace Sys2Proof

/-- A byte: 8 bits, bit 7 the most significant (R7). -/
abbrev Byte := BitVec 8

/-- A 4-bit field: PDU type, SF length, sequence number, flow status (R6). -/
abbrev Nibble := BitVec 4

/-- The 12-bit First Frame length (R6, R83). -/
abbrev FfLength := BitVec 12

end Sys2Proof
end

