-- ==== Sys2Proof/Config.lean ====
section
/-! DEFINITION. Config.lean: the implementation parameters of 00_scope.md R5. The fixed ones are plain numbers; the OPEN ones are
the fields of `Config`, and the hardware's own choice of them, `Config.chosen`, is opaque: no proof can see a value of it. -/

namespace Sys2Proof

/-- The OPEN parameters of R5, held so that every value of the record is a choice R5 allows: a value is held as its
excess over its lower bound, or is cut or raised to its bound by the function below that reads it. -/
structure Config where
  /-- `TXQ_DEPTH - 1`. -/
  txqExtra : Nat
  /-- `RXQ_DEPTH - 1`. -/
  rxqExtra : Nat
  /-- `PARAM_MAX`, before it is raised to 65535. -/
  paramMaxRaw : Nat
  /-- `SLEEP_ACTIVE`. -/
  sleepActive : Nat
  /-- `SLEEP_WAIT_FC - SLEEP_ACTIVE`. -/
  sleepWaitFcExtra : Nat
  /-- `SLEEP_IDLE - SLEEP_WAIT_FC`. -/
  sleepIdleExtra : Nat
  /-- `PARAM_RESET_STMIN`. -/
  resetStmin : Byte
  /-- `PARAM_RESET_BLOCKSIZE`. -/
  resetBlocksize : Byte
  /-- `PARAM_RESET_SQUASH`. -/
  resetSquashTiming : Bool
  /-- `PARAM_RESET_FC_TIMEOUT`, before it is cut to `PARAM_MAX`. -/
  resetFcTimeoutRaw : Nat
  /-- `PARAM_RESET_CF_TIMEOUT`, before it is cut to `PARAM_MAX`. -/
  resetCfTimeoutRaw : Nat
  /-- `PARAM_RESET_MAX_WAIT`, before it is cut to `PARAM_MAX`. -/
  resetMaxWaitRaw : Nat
  deriving DecidableEq, Repr, Inhabited

namespace Config

/-- The OPEN parameters of this hardware: an uninterpreted constant (log entry 1). -/
opaque chosen : Config

/-- `TXQ_DEPTH ≥ 1` (R5, D26). -/
def txqDepth (c : Config) : Nat := c.txqExtra + 1

/-- `RXQ_DEPTH ≥ 1` (R5, D26). -/
def rxqDepth (c : Config) : Nat := c.rxqExtra + 1

/-- `PARAM_MAX ≥ 65535` (R5, D29). -/
def paramMax (c : Config) : Nat := max c.paramMaxRaw 65535

/-- `SLEEP_WAIT_FC ≥ SLEEP_ACTIVE` (R5, D33). -/
def sleepWaitFc (c : Config) : Nat := c.sleepActive + c.sleepWaitFcExtra

/-- `SLEEP_IDLE ≥ SLEEP_WAIT_FC` (R5, D33). -/
def sleepIdle (c : Config) : Nat := c.sleepWaitFc + c.sleepIdleExtra

/-- `PARAM_RESET_FC_TIMEOUT`: a value that passes the field's validation (R5, R44). -/
def resetFcTimeout (c : Config) : Nat := min c.resetFcTimeoutRaw c.paramMax

/-- `PARAM_RESET_CF_TIMEOUT` (R5, R44). -/
def resetCfTimeout (c : Config) : Nat := min c.resetCfTimeoutRaw c.paramMax

/-- `PARAM_RESET_MAX_WAIT` (R5, R44). -/
def resetMaxWait (c : Config) : Nat := min c.resetMaxWaitRaw c.paramMax

/-- `PARAM_RESET_LL` = 8 (R5). -/
def resetLl : Nat := 8

/-- `PARAM_RESET_PADDING` = none (R5). -/
def resetPadding : Option Byte := none

/-- `MAX_MSG_LEN` = 4095 bytes (R5, R79). -/
def maxMsgLen : Nat := 4095

/-- `FRAME_MAX` = 64 bytes (R5). -/
def frameMax : Nat := 64

/-- `STMIN_SUBMS_MS` = 0 (R5, R90, D17). -/
def stminSubmsMs : Nat := 0

end Config

end Sys2Proof
end

