-- ==== Sys2Proof/Syntax.lean ====
section
/-! DEFINITION. Syntax.lean: the instructions. By 00_scope.md R14 an instruction is a host command (30_encoding.md R101) or an
inbound PDU (R81); one constructor per row of spec/opcode_table.json. -/

namespace Sys2Proof

/-- The seven addressing modes, in the order of their index (R106). -/
inductive Mode where
  | normal11 | normal29 | normalFixed29 | extended11 | extended29 | mixed11 | mixed29
  deriving DecidableEq, Repr

/-- The target type of `submit` (R19, R40). -/
inductive Target where
  | physical | functional
  deriving DecidableEq, Repr

/-- The operands of `CREATE`: each a natural or `ABSENT` (R102, R120). -/
structure AddrFields where
  txid : Option Nat
  rxid : Option Nat
  ta : Option Nat
  sa : Option Nat
  ae : Option Nat
  deriving DecidableEq, Repr

/-- The operand of `SET_PARAM`: an integer, or `none` for the token `NONE` (R102). -/
abbrev ParamValue := Option Int

/-- The three flow statuses (R86). -/
inductive FlowStatus where
  | cts | wait | ovflw
  deriving DecidableEq, Repr

/-- The legal STmin codes (R90): `ms v` is 0x00 to 0x7F, `hundredUs k` is 0xF1 + k, that is (k + 1) · 100 µs. The reserved codes
have no value here: a Flow Control that carries one does not decode. -/
inductive StminCode where
  | ms (v : BitVec 7)
  | hundredUs (k : Fin 9)
  deriving DecidableEq, Repr

/-- A CAN frame (R10). -/
structure Frame where
  id : Nat
  ext : Bool
  data : List Byte
  deriving DecidableEq, Repr

/-- One item of a host command word (R100, R102): a byte, a number, or the token `NONE` / `ABSENT`. The spec gives `now`, `value`
and the `CREATE` operands no byte layout and `now` no width, so they stay numbers (log entry 2). -/
inductive Tok where
  | byte (b : Byte)
  | int (v : Int)
  | absent
  deriving DecidableEq, Repr

/-- The instructions: one constructor per row of the opcode table, in its order. -/
inductive Instr where
  | submitPhys (payload : List Byte)
  | submitFunc (payload : List Byte)
  | poll
  | process (now : Nat)
  | reset
  | available
  | transmitting
  | idleSleep
  | setStmin (v : ParamValue)
  | setBlocksize (v : ParamValue)
  | setSquashTiming (v : ParamValue)
  | setRxFlowcontrolTimeout (v : ParamValue)
  | setRxConsecutiveFrameTimeout (v : ParamValue)
  | setTxPadding (v : ParamValue)
  | setMaxWaitFrames (v : ParamValue)
  | setLlDataLength (v : ParamValue)
  | createNormal11 (f : AddrFields)
  | createNormal29 (f : AddrFields)
  | createNormalFixed29 (f : AddrFields)
  | createExtended11 (f : AddrFields)
  | createExtended29 (f : AddrFields)
  | createMixed11 (f : AddrFields)
  | createMixed29 (f : AddrFields)
  | sf (data : List Byte)
  | ff (length : FfLength) (data : List Byte)
  | cf (sn : Nibble) (data : List Byte)
  | fcCts (bs : Byte) (stmin : StminCode)
  | fcWait (bs : Byte) (stmin : StminCode)
  | fcOvflw (bs : Byte) (stmin : StminCode)
  deriving DecidableEq, Repr

/-- The commands another thread may issue while a tick runs (R323). -/
def Instr.concurrent : Instr → Bool
  | .submitPhys _ | .submitFunc _ | .poll | .available => true
  | .process _ | .reset | .transmitting | .idleSleep => false
  | .setStmin _ | .setBlocksize _ | .setSquashTiming _ | .setRxFlowcontrolTimeout _ => false
  | .setRxConsecutiveFrameTimeout _ | .setTxPadding _ | .setMaxWaitFrames _ | .setLlDataLength _ => false
  | .createNormal11 _ | .createNormal29 _ | .createNormalFixed29 _ | .createExtended11 _ => false
  | .createExtended29 _ | .createMixed11 _ | .createMixed29 _ => false
  | .sf _ | .ff _ _ | .cf _ _ | .fcCts _ _ | .fcWait _ _ | .fcOvflw _ _ => false

/-- True for the six inbound PDUs, false for the host commands (R14). -/
def Instr.isPdu : Instr → Bool
  | .sf _ | .ff _ _ | .cf _ _ | .fcCts _ _ | .fcWait _ _ | .fcOvflw _ _ => true
  | .submitPhys _ | .submitFunc _ | .poll | .process _ | .reset | .available | .transmitting | .idleSleep => false
  | .setStmin _ | .setBlocksize _ | .setSquashTiming _ | .setRxFlowcontrolTimeout _ => false
  | .setRxConsecutiveFrameTimeout _ | .setTxPadding _ | .setMaxWaitFrames _ | .setLlDataLength _ => false
  | .createNormal11 _ | .createNormal29 _ | .createNormalFixed29 _ | .createExtended11 _ => false
  | .createExtended29 _ | .createMixed11 _ | .createMixed29 _ => false

end Sys2Proof
end

