-- ==== Sys2Proof/WellFormed.lean ====
section
/-! DEFINITION. WellFormed.lean: the instructions that some word of 30_encoding.md encodes. Ranges of `SET_PARAM` values and
`CREATE` fields are not checked here: R102 lets every value be expressed, and the commands' own rules reject it. -/

namespace Sys2Proof

/-- A payload's length fits the 16-bit length field (R102). -/
def payloadFits (m : List Byte) : Bool := decide (m.length < 65536)

/-- The encodable instructions: a payload of at most 65535 bytes (R102); an SF of 1 to 15 bytes (R82); an FF whose chunk is within
its declared length (R153) and, with its two PCI bytes, within `FRAME_MAX`; a CF that with its PCI byte is within `FRAME_MAX` (R5). -/
def wellFormed : Instr → Bool
  | .submitPhys m => payloadFits m
  | .submitFunc m => payloadFits m
  | .sf d => decide (1 ≤ d.length ∧ d.length ≤ 15)
  | .ff len d => decide (d.length ≤ len.toNat ∧ d.length + 2 ≤ Config.frameMax)
  | .cf _ d => decide (d.length + 1 ≤ Config.frameMax)
  | .poll | .process _ | .reset | .available | .transmitting | .idleSleep => true
  | .setStmin _ | .setBlocksize _ | .setSquashTiming _ | .setRxFlowcontrolTimeout _ => true
  | .setRxConsecutiveFrameTimeout _ | .setTxPadding _ | .setMaxWaitFrames _ | .setLlDataLength _ => true
  | .createNormal11 _ | .createNormal29 _ | .createNormalFixed29 _ | .createExtended11 _ => true
  | .createExtended29 _ | .createMixed11 _ | .createMixed29 _ => true
  | .fcCts _ _ | .fcWait _ _ | .fcOvflw _ _ => true

end Sys2Proof
end

