-- ==== Sys2Proof/Decode.lean ====
section
/-! DEFINITION. Decode.lean: the two decoders (host command words, 30_encoding.md R100 to R106; PDUs, 41_codec.md R150 to R158),
each total and rejecting by name; then the encoders of the same formats (R102; 41_codec.md R160 to R163). -/

namespace Sys2Proof

/-- Why a PDU decodes as `MalformedFrame` (the rows of R97). -/
inductive Malformed where
  | noPci | reservedType | sfLengthZero | sfTooLong | sfShort | ffShort | fcShort | fcReservedStatus | fcReservedStmin
  deriving DecidableEq, Repr

/-- Why a word is no instruction. -/
inductive Reject where
  /-- A host command word that does not start with an opcode byte. -/
  | noOpcode
  /-- A reserved host opcode (R105). -/
  | reservedOpcode (op : Byte)
  /-- Operands that do not have the opcode's format (R102). -/
  | badOperands (op : Byte)
  /-- `MalformedFrame` (R151). -/
  | malformed (why : Malformed)
  deriving DecidableEq, Repr

/-! ## Bit fields -/

/-- Bits 7:4 of a byte (R7). -/
def hiNibble (b : Byte) : Nibble := b.extractLsb' 4 4

/-- Bits 3:0 of a byte (R7). -/
def loNibble (b : Byte) : Nibble := b.extractLsb' 0 4

/-- The byte with the given upper and low nibbles. -/
def mkByte (hi lo : Nibble) : Byte := hi ++ lo

/-- The First Frame length: `(data[p][3:0] << 8) | data[p+1]` (R89). -/
def ffLength (b0 b1 : Byte) : FfLength := loNibble b0 ++ b1

/-- `length[11:8]` (R83). -/
def ffLengthHi (len : FfLength) : Nibble := len.extractLsb' 8 4

/-- `length[7:0]` (R83). -/
def ffLengthLo (len : FfLength) : Byte := len.extractLsb' 0 8

/-- A 16-bit number, most significant byte first (R102). -/
def nat16 (hi lo : Byte) : Nat := hi.toNat * 256 + lo.toNat

/-- `stmin_decode` (R157, table of R90): the legal STmin codes. -/
def stminDecode (v : Byte) : Option StminCode :=
  if v.toNat ≤ 0x7F then some (.ms (v.setWidth 7))
  else if 0xF1 ≤ v.toNat ∧ v.toNat ≤ 0xF9 then some (.hundredUs (Fin.ofNat 9 (v.toNat - 0xF1)))
  else none

/-- The code byte (R90). -/
def StminCode.raw : StminCode → Byte
  | .ms v => v.setWidth 8
  | .hundredUs k => BitVec.ofNat 8 (0xF1 + k.val)

/-- `stmin_ms` (R90): the whole milliseconds the transmitter uses. -/
def StminCode.toMs : StminCode → Nat
  | .ms v => v.toNat
  | .hundredUs _ => Config.stminSubmsMs

/-- The flow status of a status nibble (R86); 3 to 15 are reserved. -/
def flowStatusOf (fs : Nibble) : Option FlowStatus :=
  match fs.toNat with
  | 0 => some .cts
  | 1 => some .wait
  | 2 => some .ovflw
  | _ => none

/-- The status nibble of a flow status (R86). -/
def FlowStatus.nibble : FlowStatus → Nibble
  | .cts => 0
  | .wait => 1
  | .ovflw => 2

/-- The Flow Control instruction with a given status. -/
def fcInstr (status : FlowStatus) (bs : Byte) (st : StminCode) : Instr :=
  match status with
  | .cts => .fcCts bs st
  | .wait => .fcWait bs st
  | .ovflw => .fcOvflw bs st

/-! ## The PDU decoder -/

/-- Single Frame (R152); `b0` is the PCI byte and `body` what follows it. -/
def decodeSf (p maxLen : Nat) (b0 : Byte) (body : List Byte) : Except Reject Instr :=
  let len := (loNibble b0).toNat
  if len = 0 then .error (.malformed .sfLengthZero)
  else if (maxLen : Int) - 1 - p < len then .error (.malformed .sfTooLong)
  else if body.length < len then .error (.malformed .sfShort)
  else .ok (.sf (body.take len))

/-- First Frame (R153): the chunk is cut to the declared length. -/
def decodeFf (b0 : Byte) (body : List Byte) : Except Reject Instr :=
  match body with
  | [] => .error (.malformed .ffShort)
  | b1 :: rest => .ok (.ff (ffLength b0 b1) (rest.take (ffLength b0 b1).toNat))

/-- Flow Control (R155): the bytes after STmin are ignored. -/
def decodeFc (b0 : Byte) (body : List Byte) : Except Reject Instr :=
  match body with
  | bs :: raw :: _ =>
    match flowStatusOf (loNibble b0) with
    | none => .error (.malformed .fcReservedStatus)
    | some status =>
      match stminDecode raw with
      | none => .error (.malformed .fcReservedStmin)
      | some st => .ok (fcInstr status bs st)
  | _ => .error (.malformed .fcShort)

/-- `decode(data, p, max_len)` (R150): total, by the type nibble of the first byte after the prefix (R81). -/
def decodePdu (data : List Byte) (p maxLen : Nat) : Except Reject Instr :=
  match data.drop p with
  | [] => .error (.malformed .noPci)
  | b0 :: body =>
    match (hiNibble b0).toNat with
    | 0 => decodeSf p maxLen b0 body
    | 1 => decodeFf b0 body
    | 2 => .ok (.cf (loNibble b0) body)
    | 3 => decodeFc b0 body
    | _ => .error (.malformed .reservedType)

/-! ## The host command decoder -/

/-- The bytes of a list of items that are all bytes. -/
def bytesOf : List Tok → Option (List Byte)
  | [] => some []
  | .byte b :: ts => (bytesOf ts).map (b :: ·)
  | .int _ :: _ => none
  | .absent :: _ => none

/-- `payload`: a 16-bit length, most significant byte first, and that many bytes (R102). -/
def payloadOf : List Tok → Option (List Byte)
  | .byte hi :: .byte lo :: ts =>
    match bytesOf ts with
    | some bs => if bs.length = nat16 hi lo then some bs else none
    | none => none
  | _ => none

/-- `now`: an unsigned natural (R102). -/
def timeOf : List Tok → Option Nat
  | [.int (.ofNat n)] => some n
  | _ => none

/-- `value`: an integer or `NONE` (R102). -/
def valueOf : List Tok → Option ParamValue
  | [.int v] => some (some v)
  | [.absent] => some none
  | _ => none

/-- One `CREATE` operand: a natural or `ABSENT` (R102). -/
def fieldOf : Tok → Option (Option Nat)
  | .int (.ofNat n) => some (some n)
  | .int (.negSucc _) => none
  | .absent => some none
  | .byte _ => none

/-- The `CREATE` operands in the order txid, rxid, ta, sa, ae (R101). -/
def addrFieldsOf : List Tok → Option AddrFields
  | [t, r, a, s, e] =>
    match fieldOf t, fieldOf r, fieldOf a, fieldOf s, fieldOf e with
    | some t, some r, some a, some s, some e => some ⟨t, r, a, s, e⟩
    | _, _, _, _, _ => none
  | _ => none

/-- No operands. -/
def noOperands : List Tok → Option Unit
  | [] => some ()
  | _ :: _ => none

/-- The instruction of an opcode whose operands were read, or the rejection of its operands. -/
def withOperands {α : Type} (op : Byte) (operands : Option α) (mk : α → Instr) : Except Reject Instr :=
  match operands with
  | some x => .ok (mk x)
  | none => .error (.badOperands op)

/-- The opcode assignment of R101, R104 and R106; every other opcode is reserved (R105). -/
def decodeOpcode (op : Byte) (ts : List Tok) : Except Reject Instr :=
  match op.toNat with
  | 0x01 => withOperands op (payloadOf ts) .submitPhys
  | 0x02 => withOperands op (payloadOf ts) .submitFunc
  | 0x03 => withOperands op (noOperands ts) fun _ => .poll
  | 0x04 => withOperands op (timeOf ts) .process
  | 0x05 => withOperands op (noOperands ts) fun _ => .reset
  | 0x06 => withOperands op (noOperands ts) fun _ => .available
  | 0x07 => withOperands op (noOperands ts) fun _ => .transmitting
  | 0x08 => withOperands op (noOperands ts) fun _ => .idleSleep
  | 0x10 => withOperands op (valueOf ts) .setStmin
  | 0x11 => withOperands op (valueOf ts) .setBlocksize
  | 0x12 => withOperands op (valueOf ts) .setSquashTiming
  | 0x13 => withOperands op (valueOf ts) .setRxFlowcontrolTimeout
  | 0x14 => withOperands op (valueOf ts) .setRxConsecutiveFrameTimeout
  | 0x15 => withOperands op (valueOf ts) .setTxPadding
  | 0x16 => withOperands op (valueOf ts) .setMaxWaitFrames
  | 0x17 => withOperands op (valueOf ts) .setLlDataLength
  | 0x20 => withOperands op (addrFieldsOf ts) .createNormal11
  | 0x21 => withOperands op (addrFieldsOf ts) .createNormal29
  | 0x22 => withOperands op (addrFieldsOf ts) .createNormalFixed29
  | 0x23 => withOperands op (addrFieldsOf ts) .createExtended11
  | 0x24 => withOperands op (addrFieldsOf ts) .createExtended29
  | 0x25 => withOperands op (addrFieldsOf ts) .createMixed11
  | 0x26 => withOperands op (addrFieldsOf ts) .createMixed29
  | _ => .error (.reservedOpcode op)

/-- A host command word: one opcode byte, then its operands (R100). -/
def decodeHost : List Tok → Except Reject Instr
  | .byte op :: ts => decodeOpcode op ts
  | .int _ :: _ => .error .noOpcode
  | .absent :: _ => .error .noOpcode
  | [] => .error .noOpcode

/-! ## The encoders -/

/-- `encode_sf` (R160). -/
def encodeSf (pfx m : List Byte) : List Byte := pfx ++ mkByte 0 (BitVec.ofNat 4 m.length) :: m

/-- `encode_ff` (R161): `[0x10 | (L >> 8), L & 0xFF]`, then the chunk. -/
def encodeFf (pfx : List Byte) (len : FfLength) (chunk : List Byte) : List Byte :=
  pfx ++ mkByte 1 (ffLengthHi len) :: ffLengthLo len :: chunk

/-- `encode_cf` (R162). -/
def encodeCf (pfx : List Byte) (sn : Nibble) (chunk : List Byte) : List Byte := pfx ++ mkByte 2 sn :: chunk

/-- `encode_flow_control` (R163): three bytes after the prefix. -/
def encodeFc (pfx : List Byte) (status : FlowStatus) (bs st : Byte) : List Byte :=
  pfx ++ [mkByte 3 status.nibble, bs, st]

/-- The payload operand (R102). -/
def payloadToks (m : List Byte) : List Tok :=
  .byte (BitVec.ofNat 8 (m.length / 256)) :: .byte (BitVec.ofNat 8 m.length) :: m.map .byte

/-- The `value` operand (R102). -/
def valueTok : ParamValue → Tok
  | some v => .int v
  | none => .absent

/-- One `CREATE` operand (R102). -/
def fieldTok : Option Nat → Tok
  | some n => .int n
  | none => .absent

/-- The `CREATE` operands (R101). -/
def addrToks (f : AddrFields) : List Tok :=
  [fieldTok f.txid, fieldTok f.rxid, fieldTok f.ta, fieldTok f.sa, fieldTok f.ae]

/-- A word of one of the block's two encoded streams (R14): a host command word, or the payload of a frame. -/
inductive Code where
  | host (word : List Tok)
  | pdu (data : List Byte)
  deriving DecidableEq, Repr

/-- The word of an instruction; `pfx` is the addressing prefix a PDU's frame carries. -/
def encode (pfx : List Byte) : Instr → Code
  | .submitPhys m => .host (.byte 0x01 :: payloadToks m)
  | .submitFunc m => .host (.byte 0x02 :: payloadToks m)
  | .poll => .host [.byte 0x03]
  | .process now => .host [.byte 0x04, .int now]
  | .reset => .host [.byte 0x05]
  | .available => .host [.byte 0x06]
  | .transmitting => .host [.byte 0x07]
  | .idleSleep => .host [.byte 0x08]
  | .setStmin v => .host [.byte 0x10, valueTok v]
  | .setBlocksize v => .host [.byte 0x11, valueTok v]
  | .setSquashTiming v => .host [.byte 0x12, valueTok v]
  | .setRxFlowcontrolTimeout v => .host [.byte 0x13, valueTok v]
  | .setRxConsecutiveFrameTimeout v => .host [.byte 0x14, valueTok v]
  | .setTxPadding v => .host [.byte 0x15, valueTok v]
  | .setMaxWaitFrames v => .host [.byte 0x16, valueTok v]
  | .setLlDataLength v => .host [.byte 0x17, valueTok v]
  | .createNormal11 f => .host (.byte 0x20 :: addrToks f)
  | .createNormal29 f => .host (.byte 0x21 :: addrToks f)
  | .createNormalFixed29 f => .host (.byte 0x22 :: addrToks f)
  | .createExtended11 f => .host (.byte 0x23 :: addrToks f)
  | .createExtended29 f => .host (.byte 0x24 :: addrToks f)
  | .createMixed11 f => .host (.byte 0x25 :: addrToks f)
  | .createMixed29 f => .host (.byte 0x26 :: addrToks f)
  | .sf d => .pdu (encodeSf pfx d)
  | .ff len d => .pdu (encodeFf pfx len d)
  | .cf sn d => .pdu (encodeCf pfx sn d)
  | .fcCts bs st => .pdu (encodeFc pfx .cts bs st.raw)
  | .fcWait bs st => .pdu (encodeFc pfx .wait bs st.raw)
  | .fcOvflw bs st => .pdu (encodeFc pfx .ovflw bs st.raw)

/-- The decoder of both streams: a PDU is read with the session's prefix length and link-layer length (R150, R158). -/
def decode (p maxLen : Nat) : Code → Except Reject Instr
  | .host w => decodeHost w
  | .pdu d => decodePdu d p maxLen

/-! ## The opcode table's words -/

/-- The bytes of a table word: byte 0 holds its bits 7:0. -/
def tableBytes : Nat → Nat → List Byte
  | 0, _ => []
  | k + 1, w => BitVec.ofNat 8 w :: tableBytes k (w / 256)

/-- The operand items of an opcode with every operand zero (a payload of length 0, numbers 0). -/
def zeroOperands (op : Nat) : List Tok :=
  if op = 1 ∨ op = 2 then [.byte 0, .byte 0]
  else if op = 4 ∨ (0x10 ≤ op ∧ op ≤ 0x17) then [.int 0]
  else if 0x20 ≤ op ∧ op ≤ 0x26 then [.int 0, .int 0, .int 0, .int 0, .int 0]
  else []

/-- The link-layer length under which every SF length 1 to 15 decodes without a prefix (R152). -/
def tableLl : Nat := 16

/-- The word of the opcode table's row (log entry 3): one byte that is an assigned host opcode is that command with zero operands;
anything else is the start of a frame's PDU, followed by zero bytes up to `tableLl`. -/
def tableCode (nbits w : Nat) : Code :=
  let host : List Tok := .byte (BitVec.ofNat 8 w) :: zeroOperands (w % 256)
  match decide (nbits ≤ 8), decodeHost host with
  | true, .ok _ => .host host
  | _, _ =>
    let bs := tableBytes ((nbits + 7) / 8) w
    .pdu (bs ++ List.replicate (tableLl - bs.length) 0)

/-- The instruction the decoders read from a word of the opcode table. -/
def decodeTableWord (nbits w : Nat) : Option Instr := (decode 0 tableLl (tableCode nbits w)).toOption

end Sys2Proof
end

