-- ==== Sys2Proof/Machine/State.lean ====
section
/-! DEFINITION. Machine/State.lean: the state of 10_state.md as plain data, the outputs and inputs at the block's ports, the reasons a
step can stop, and the power-on state of 70_reset_and_hazards.md R340. The block has no addressable memory (20_memory.md R60). -/

namespace Sys2Proof.Machine

/-- A timer (R11): disarmed, or armed with the `now` it was armed at. `start` is don't-care while disarmed and so is not there. -/
inductive Timer where
  | disarmed
  | armed (start : Nat)
  deriving DecidableEq, Repr

/-- The receiver's states (R24). -/
inductive RxState where
  | idle | waitCf
  deriving DecidableEq, Repr

/-- The transmitter's states (R25). -/
inductive TxState where
  | idle | waitFc | txCf
  deriving DecidableEq, Repr

/-- The resolved address (R21). `p` is `pfx.length`. -/
structure Addr where
  mode : Mode
  is29 : Bool
  txPhys : Nat
  txFunc : Nat
  rxPhys : Nat
  rxFunc : Nat
  pfx : List Byte
  ta : Option Byte
  sa : Option Byte
  ae : Option Byte
  rxid : Option Nat
  deriving DecidableEq, Repr

/-- The Parameters record (R43), in the order of its selectors (R104). -/
structure Params where
  stmin : Byte
  blocksize : Byte
  squashTiming : Bool
  rxFlowcontrolTimeout : Nat
  rxConsecutiveFrameTimeout : Nat
  txPadding : Option Byte
  maxWaitFrames : Nat
  llDataLength : Nat
  deriving DecidableEq, Repr

/-- A decoded Flow Control (R156). -/
structure FlowControl where
  status : FlowStatus
  bs : Byte
  stminRaw : Byte
  stminMs : Nat
  deriving DecidableEq, Repr

/-- The receive registers (R24, R26 to R30). -/
structure RxRegs where
  state : RxState
  buf : List Byte
  len : FfLength
  lastSeq : Nibble
  blockCnt : Nat
  cfTimer : Timer
  deriving DecidableEq, Repr

/-- The transmit registers (R25, R33 to R39). -/
structure TxRegs where
  state : TxState
  buf : List Byte
  seq : Nibble
  blockCnt : Nat
  waitCnt : Nat
  peerBs : Byte
  peerStminMs : Nat
  fcTimer : Timer
  stminTimer : Timer
  deriving DecidableEq, Repr

/-- A queued outbound message (R40). -/
structure TxMessage where
  payload : List Byte
  target : Target
  deriving DecidableEq, Repr

/-- The fifteen error kinds (R301). -/
inductive ErrorKind where
  | invalidAddressConfig | malformedFrame | unexpectedConsecutiveFrame | wrongSequenceNumber
  | receptionInterruptedByNewFirstFrame | receptionInterruptedBySingleFrame | consecutiveFrameTimeout
  | flowControlTimeout | unexpectedFlowControl | unsupportedWaitFrame | maximumWaitFramesReached | configValidation
  | flowControlOverflow | untransmittableMessage | rxQueueOverflow
  deriving DecidableEq, Repr

/-- An error event as the error-report port receives it: the code's kind with its info (R300, R301). `InvalidAddressConfig` and
`ConfigValidation` are statuses only and never events. -/
inductive ErrorEvent where
  | malformedFrame (data : List Byte)
  | unexpectedConsecutiveFrame (sn : Nibble)
  | wrongSequenceNumber (expected received : Nibble)
  | receptionInterruptedByNewFirstFrame
  | receptionInterruptedBySingleFrame
  | consecutiveFrameTimeout
  | flowControlTimeout
  | unexpectedFlowControl (status : FlowStatus)
  | unsupportedWaitFrame
  | maximumWaitFramesReached
  | flowControlOverflow
  | untransmittableMessage (bytes : Nat)
  | rxQueueOverflow (len : Nat)
  deriving DecidableEq, Repr

/-- The events of a tick, in one order (R12, R54). -/
inductive Event where
  | emit (f : Frame)
  | report (e : ErrorEvent)
  | deliver (m : List Byte)
  deriving DecidableEq, Repr

/-- The status byte values (R103). -/
inductive Status where
  | ok | invalidAddressConfig | configValidation | functionalMultiFrame | invalidLength | queueFull | illegalCommand
  deriving DecidableEq, Repr

/-- What a command returns beside its status (R101). -/
inductive Value where
  | nothing
  | message (m : List Byte)
  | noMessage
  | bool (b : Bool)
  | ms (n : Nat)
  deriving DecidableEq, Repr

/-- The host's two threads (R328). The one that called `process()` is inside it while the tick runs; the other may then call the
commands of R323. -/
inductive Agent where
  | first | second
  deriving DecidableEq, Repr

/-- What one command returned, and to which thread. -/
structure Result where
  agent : Agent
  status : Status
  value : Value
  deriving DecidableEq, Repr

/-- A line of the host's program (R108): a command word, or the directive that places a frame at the back of the receive port. -/
inductive HostLine where
  | command (word : List Tok)
  | rx (f : Frame)
  deriving DecidableEq, Repr

/-- The position of the tick engine (R23, R271): between ticks, draining the receive port, or in the transmit phase. The snapshot and
the timeout check belong to the step that starts the tick. -/
inductive Phase where
  | idle | drain | transmit
  deriving DecidableEq, Repr

/-- The whole state. No field is a function. -/
structure State where
  /-- The OPEN parameters of R5: arguments of the model; no step writes them. -/
  cfg : Config
  /-- `addr` (R21); `configured` (R20) is true exactly when it is there. -/
  addr : Option Addr
  /-- `params` (R43). -/
  params : Params
  /-- The receive registers (R24, R26 to R30). -/
  rx : RxRegs
  /-- The transmit registers (R25, R33 to R39). -/
  tx : TxRegs
  /-- `fc_request` (R31). -/
  fcRequest : Bool
  /-- `fc_slot` (R32). -/
  fcSlot : Option FlowControl
  /-- `tx_queue` (R40), oldest first. -/
  txQueue : List TxMessage
  /-- `rx_queue` (R41), oldest first. -/
  rxQueue : List (List Byte)
  /-- The tick engine's position (R23). -/
  phase : Phase
  /-- The time input of the running tick, or of the last one (R271, R272). -/
  now : Nat
  /-- `snap` (R52): written when a tick starts, read only while it runs. -/
  snap : Params
  /-- Input, the model's own: the lines the first thread has still to issue. -/
  host1 : List HostLine
  /-- Input, the model's own: the command words the second thread has still to issue. -/
  host2 : List (List Tok)
  /-- Input, the model's own: which thread moves at the coming steps (R323); when the list ends, the tick engine while a tick runs
  and the first thread between ticks. -/
  turn : List Agent
  /-- The thread whose command is being executed: the model's own. -/
  caller : Agent
  /-- The thread inside the running tick, or the last one: the model's own. -/
  driver : Agent
  /-- Input: the frames behind the receive port, in the order `receive()` returns them (R42). -/
  rxPort : List Frame
  /-- Output: the transmit port, the error-report port and the deliveries as one ordered log, oldest first (R12, R54). -/
  log : List Event
  /-- Output: what the commands returned, oldest first (R100). -/
  results : List Result
  deriving DecidableEq, Repr

/-- The block has no fault state (R17, R303): no constructor. -/
inductive Fault where
  deriving DecidableEq, Repr

/-- Why a step gives no next state. All are safe: the model stops where R17 and R352 give no move. -/
inductive Refusal where
  /-- Raised by an arm of `exec` whose instruction has no meaning yet (none is left). Safe. -/
  | notModelled (mnemonic : String)
  /-- Raised by `PROCESS` with a `now` smaller than the last tick's (R272; 93_implementation_defined.md U17). Safe. -/
  | timeDecreased
  /-- Raised by the drain when `receive()` returns a frame whose ID exceeds its width or with more than `FRAME_MAX` bytes (U19). Safe. -/
  | frameOutsideDuty
  /-- Raised by a command other than SUBMIT, POLL and AVAILABLE issued while a tick runs (R323, U20). Safe. -/
  | commandDuringTick
  /-- Raised by the fetch on a command word without an opcode byte or with operands not in the opcode's format: the admission check of
  93_implementation_defined.md ("a command term it cannot decode"). Safe. -/
  | badCommandWord
  /-- Raised by the tick engine when no session exists. No run reaches it: a tick starts only when configured (R262). Safe. -/
  | tickWithoutSession
  deriving DecidableEq, Repr

/-- The answer of one step. -/
abbrev Out := Host.Outcome State Fault Refusal

/-- The receive registers at reset (R340). -/
def RxRegs.reset : RxRegs :=
  { state := .idle, buf := [], len := 0, lastSeq := 0, blockCnt := 0, cfTimer := .disarmed }

/-- The transmit registers at reset (R340). -/
def TxRegs.reset : TxRegs :=
  { state := .idle, buf := [], seq := 0, blockCnt := 0, waitCnt := 0, peerBs := 0, peerStminMs := 0
    fcTimer := .disarmed, stminTimer := .disarmed }

/-- The Parameters at reset (R43, R340). -/
def Params.reset (c : Config) : Params :=
  { stmin := c.resetStmin, blocksize := c.resetBlocksize, squashTiming := c.resetSquashTiming
    rxFlowcontrolTimeout := c.resetFcTimeout, rxConsecutiveFrameTimeout := c.resetCfTimeout
    txPadding := Config.resetPadding, maxWaitFrames := c.resetMaxWait, llDataLength := Config.resetLl }

/-- The power-on state of the hardware with given OPEN parameters (R340). -/
def State.powerOn (c : Config) : State :=
  { cfg := c, addr := none, params := Params.reset c, rx := RxRegs.reset, tx := TxRegs.reset
    fcRequest := false, fcSlot := none, txQueue := [], rxQueue := []
    phase := .idle, now := 0, snap := Params.reset c
    host1 := [], host2 := [], turn := [], caller := .first, driver := .first, rxPort := [], log := [], results := [] }

/-- The state right after reset (power-on, R340). -/
def State.reset : State := State.powerOn Config.chosen

end Sys2Proof.Machine
end

