-- ==== Sys2Proof/Machine/Ops.lean ====
section
/-! DEFINITION. Machine/Ops.lean: the named operations every rule is written in: the ports (R9), the timers (R11), the return of
either side to Idle (R182, R222), delivery (R212), and reporting an error. The block takes no exceptions: `report` is the whole of
what a trap entry would be, and there is no return from one (60_exceptions.md R313, R315). -/

namespace Sys2Proof.Machine

/-- `configured` (R20): a session exists exactly when an address was resolved. -/
def State.configured (s : State) : Bool := s.addr.isSome

/-- The prefix length `p` of the session (R21). -/
def State.prefixLen (s : State) : Nat :=
  match s.addr with
  | some a => a.pfx.length
  | none => 0

/-- The timer is armed (R11). -/
def Timer.isArmed : Timer → Bool
  | .disarmed => false
  | .armed _ => true

/-- `expired(t, d)` at `now` (R11); the difference is over the integers (R8). -/
def Timer.expired (t : Timer) (now d : Nat) : Bool :=
  match t with
  | .disarmed => false
  | .armed start => decide (d = 0) || decide ((d : Int) < (now : Int) - start)

/-- Appends one event to the log (R12). -/
def State.record (s : State) (e : Event) : State := { s with log := s.log ++ [e] }

/-- `report E(info)` (R9, R300, R313): one event at the error-report port, no register changed, and the rule goes on. -/
def State.report (s : State) (e : ErrorEvent) : State := s.record (.report e)

/-- `emit(frame)` (R9): one frame at the transmit port, which never refuses it (R353). -/
def State.emit (s : State) (f : Frame) : State := s.record (.emit f)

/-- What the command being executed returns (R100). -/
def State.answer (s : State) (status : Status) (value : Value := .nothing) : State :=
  { s with results := s.results ++ [⟨s.caller, status, value⟩] }

/-- `deliver(m)` (R212): a full `rx_queue` drops the message with a report. -/
def deliver (m : List Byte) (s : State) : State :=
  if s.cfg.rxqDepth ≤ s.rxQueue.length then s.report (.rxQueueOverflow m.length)
  else State.record { s with rxQueue := s.rxQueue ++ [m] } (.deliver m)

/-- `rx_to_idle()` (R182). -/
def rxToIdle (s : State) : State :=
  { s with
    rx := { s.rx with state := .idle, buf := [], len := 0, lastSeq := 0, blockCnt := 0, cfTimer := .disarmed }
    fcRequest := false }

/-- `tx_to_idle()` (R222). -/
def txToIdle (s : State) : State :=
  { s with
    tx := { s.tx with
      state := .idle, buf := [], seq := 0, blockCnt := 0, waitCnt := 0, peerBs := 0, peerStminMs := 0
      fcTimer := .disarmed, stminTimer := .disarmed } }

/-- `arm(rx_cf_timer)` (R11, R30). -/
def armRxCf (s : State) : State := { s with rx := { s.rx with cfTimer := .armed s.now } }

/-- `arm(tx_fc_timer)` (R11, R38). -/
def armTxFc (s : State) : State := { s with tx := { s.tx with fcTimer := .armed s.now } }

/-- `arm(tx_stmin_timer)` (R11, R39). -/
def armTxStmin (s : State) : State := { s with tx := { s.tx with stminTimer := .armed s.now } }

/-- `session_reset()` (R280). -/
def sessionReset (s : State) : State :=
  { txToIdle (rxToIdle s) with fcSlot := none, txQueue := [], rxQueue := [] }

/-- A command that only the lifecycle of R262 guards: without a session it changes no state and returns `IllegalCommand`. -/
def whenConfigured (s : State) (run : Out) : Out :=
  if s.configured then run else .next (s.answer .illegalCommand)

/-- A command that may not overlap a tick (R16, R323). -/
def betweenTicks (s : State) (run : Out) : Out :=
  match s.phase with
  | .idle => run
  | .drain => .refused .commandDuringTick
  | .transmit => .refused .commandDuringTick

/-- The code byte of an error kind (R301). -/
def ErrorKind.code : ErrorKind → Byte
  | .invalidAddressConfig => 0x01
  | .malformedFrame => 0x02
  | .unexpectedConsecutiveFrame => 0x03
  | .wrongSequenceNumber => 0x04
  | .receptionInterruptedByNewFirstFrame => 0x05
  | .receptionInterruptedBySingleFrame => 0x06
  | .consecutiveFrameTimeout => 0x07
  | .flowControlTimeout => 0x08
  | .unexpectedFlowControl => 0x09
  | .unsupportedWaitFrame => 0x0A
  | .maximumWaitFramesReached => 0x0B
  | .configValidation => 0x0C
  | .flowControlOverflow => 0x0D
  | .untransmittableMessage => 0x0E
  | .rxQueueOverflow => 0x0F

/-- The kind of an event (R300). -/
def ErrorEvent.kind : ErrorEvent → ErrorKind
  | .malformedFrame _ => .malformedFrame
  | .unexpectedConsecutiveFrame _ => .unexpectedConsecutiveFrame
  | .wrongSequenceNumber _ _ => .wrongSequenceNumber
  | .receptionInterruptedByNewFirstFrame => .receptionInterruptedByNewFirstFrame
  | .receptionInterruptedBySingleFrame => .receptionInterruptedBySingleFrame
  | .consecutiveFrameTimeout => .consecutiveFrameTimeout
  | .flowControlTimeout => .flowControlTimeout
  | .unexpectedFlowControl _ => .unexpectedFlowControl
  | .unsupportedWaitFrame => .unsupportedWaitFrame
  | .maximumWaitFramesReached => .maximumWaitFramesReached
  | .flowControlOverflow => .flowControlOverflow
  | .untransmittableMessage _ => .untransmittableMessage
  | .rxQueueOverflow _ => .rxQueueOverflow

/-- The status byte (R103). -/
def Status.code : Status → Byte
  | .ok => 0x00
  | .invalidAddressConfig => 0x01
  | .configValidation => 0x0C
  | .functionalMultiFrame => 0x20
  | .invalidLength => 0x21
  | .queueFull => 0x22
  | .illegalCommand => 0x2F

/-- The frames of a log, in order: what the transmit port carried (R54). -/
def framesOf (log : List Event) : List Frame :=
  log.filterMap fun | .emit f => some f | .report _ => none | .deliver _ => none

/-- The errors of a log, in order: what the error-report port carried (R54). -/
def errorsOf (log : List Event) : List ErrorEvent :=
  log.filterMap fun | .report e => some e | .emit _ => none | .deliver _ => none

/-- The deliveries of a log, in order (R12). -/
def deliveriesOf (log : List Event) : List (List Byte) :=
  log.filterMap fun | .deliver m => some m | .emit _ => none | .report _ => none

end Sys2Proof.Machine
end

