-- ==== Sys2Proof/Machine/Operands.lean ====
section
/-! DEFINITION. Machine/Operands.lean: the operand forms: parameter values (R44), the addressing resolver and the receive filter
(40_addressing.md R120 to R140), and the frames the block builds (41_codec.md R164, R165). -/

namespace Sys2Proof.Machine

/-! ## Parameter values (R44): `none` where the write is illegal -/

/-- `stmin`, `blocksize`: an integer that fits a byte. -/
def paramByte : ParamValue → Option Byte
  | some (.ofNat n) => if n ≤ 255 then some (BitVec.ofNat 8 n) else none
  | some (.negSucc _) => none
  | none => none

/-- `squash_timing`: 0 or 1. -/
def paramBool : ParamValue → Option Bool
  | some (.ofNat n) => if n = 0 then some false else if n = 1 then some true else none
  | some (.negSucc _) => none
  | none => none

/-- The timeouts, `max_wait_frames` and `ll_data_length`: 0 to `PARAM_MAX`. -/
def paramNat (c : Config) : ParamValue → Option Nat
  | some (.ofNat n) => if n ≤ c.paramMax then some n else none
  | some (.negSucc _) => none
  | none => none

/-- `tx_padding`: `NONE`, or an integer that fits a byte. -/
def paramPadding : ParamValue → Option (Option Byte)
  | none => some none
  | some v => (paramByte (some v)).map some

/-! ## The addressing resolver -/

/-- The largest ID of a width (R6, R121). -/
def idMax (is29 : Bool) : Nat := if is29 then 0x1FFFFFFF else 0x7FF

/-- A required ID: present and within its width (R121). -/
def requireId (is29 : Bool) : Option Nat → Option Nat
  | some v => if v ≤ idMax is29 then some v else none
  | none => none

/-- A required `ta`, `sa` or `ae`: present and at most 255 (R121). -/
def requireByte : Option Nat → Option Byte
  | some v => if v ≤ 0xFF then some (BitVec.ofNat 8 v) else none
  | none => none

/-- `0x18000000 | (PF << 16) | (X << 8) | Y` (R95). -/
def fixedId (pf x y : Byte) : Nat := 0x18000000 ||| pf.toNat <<< 16 ||| x.toNat <<< 8 ||| y.toNat

/-- The modes with configured IDs: one `txid` and one `rxid` for both target types (R123). -/
def configuredIds (m : Mode) (is29 : Bool) (tx rx : Nat) (pfx : List Byte) (ta sa ae : Option Byte) : Addr :=
  { mode := m, is29 := is29, txPhys := tx, txFunc := tx, rxPhys := rx, rxFunc := rx, pfx := pfx
    ta := ta, sa := sa, ae := ae, rxid := some rx }

/-- The modes with pattern IDs: the receive IDs swap target and source (R126, R130). -/
def patternIds (m : Mode) (pfPhys pfFunc ta sa : Byte) (pfx : List Byte) (ae : Option Byte) : Addr :=
  { mode := m, is29 := true
    txPhys := fixedId pfPhys ta sa, txFunc := fixedId pfFunc ta sa
    rxPhys := fixedId pfPhys sa ta, rxFunc := fixedId pfFunc sa ta
    pfx := pfx, ta := some ta, sa := some sa, ae := ae, rxid := none }

/-- `Normal11`, `Normal29` (R124, R125). -/
def resolveNormal (m : Mode) (is29 : Bool) (f : AddrFields) : Option Addr :=
  match requireId is29 f.txid, requireId is29 f.rxid with
  | some tx, some rx => some (configuredIds m is29 tx rx [] none none none)
  | _, _ => none

/-- `NormalFixed29` (R126). -/
def resolveNormalFixed (f : AddrFields) : Option Addr :=
  match requireByte f.ta, requireByte f.sa with
  | some ta, some sa => some (patternIds .normalFixed29 0xDA 0xDB ta sa [] none)
  | _, _ => none

/-- `Extended11`, `Extended29` (R127, R128). -/
def resolveExtended (m : Mode) (is29 : Bool) (f : AddrFields) : Option Addr :=
  match requireId is29 f.txid, requireId is29 f.rxid, requireByte f.ta, requireByte f.sa with
  | some tx, some rx, some ta, some sa => some (configuredIds m is29 tx rx [ta] (some ta) (some sa) none)
  | _, _, _, _ => none

/-- `Mixed11` (R129). -/
def resolveMixed11 (f : AddrFields) : Option Addr :=
  match requireId false f.txid, requireId false f.rxid, requireByte f.ae with
  | some tx, some rx, some ae => some (configuredIds .mixed11 false tx rx [ae] none none (some ae))
  | _, _, _ => none

/-- `Mixed29` (R130). -/
def resolveMixed29 (f : AddrFields) : Option Addr :=
  match requireByte f.ta, requireByte f.sa, requireByte f.ae with
  | some ta, some sa, some ae => some (patternIds .mixed29 0xCE 0xCD ta sa [ae] (some ae))
  | _, _, _ => none

/-- `resolve(mode, f)` (R120 to R131); `none` is `InvalidAddressConfig`. A field the mode does not require is ignored (R123). -/
def resolve (m : Mode) (f : AddrFields) : Option Addr :=
  match m with
  | .normal11 => resolveNormal .normal11 false f
  | .normal29 => resolveNormal .normal29 true f
  | .normalFixed29 => resolveNormalFixed f
  | .extended11 => resolveExtended .extended11 false f
  | .extended29 => resolveExtended .extended29 true f
  | .mixed11 => resolveMixed11 f
  | .mixed29 => resolveMixed29 f

/-! ## The receive filter -/

/-- The byte of an ID whose lowest bit is `lo`: `id[lo+7:lo]` (R7). -/
def idByte (id lo : Nat) : Byte := BitVec.ofNat 8 (id >>> lo)

/-- The ID and width comparison of R133, R135, R136. -/
def matchesConfiguredId (a : Addr) (f : Frame) : Bool := decide (f.ext = a.is29) && decide (some f.id = a.rxid)

/-- The pattern-ID check of R134 and R137; bits 28:24 are not looked at (90_conflicts.md C8). -/
def matchesPatternId (pf1 pf2 : Byte) (a : Addr) (f : Frame) : Bool :=
  f.ext && (decide (idByte f.id 16 = pf1) || decide (idByte f.id 16 = pf2))
    && decide (some (idByte f.id 8) = a.sa) && decide (some (idByte f.id 0) = a.ta)

/-- A non-empty payload whose byte 0 is the expected one (R135 to R137). -/
def leadsWith (expected : Option Byte) (f : Frame) : Bool :=
  match f.data with
  | [] => false
  | b :: _ => decide (some b = expected)

/-- `is_for_me(addr, frame)` (R132 to R137). -/
def isForMe (a : Addr) (f : Frame) : Bool :=
  match a.mode with
  | .normal11 => matchesConfiguredId a f
  | .normal29 => matchesConfiguredId a f
  | .normalFixed29 => matchesPatternId 0xDA 0xDB a f
  | .extended11 => matchesConfiguredId a f && leadsWith a.sa f
  | .extended29 => matchesConfiguredId a f && leadsWith a.sa f
  | .mixed11 => matchesConfiguredId a f && leadsWith a.ae f
  | .mixed29 => matchesPatternId 0xCE 0xCD a f && leadsWith a.ae f

/-- The prefix byte a frame addressed to this session carries (R96). -/
def Addr.rxPrefix (a : Addr) : List Byte :=
  match a.mode with
  | .normal11 => []
  | .normal29 => []
  | .normalFixed29 => []
  | .extended11 => a.sa.toList
  | .extended29 => a.sa.toList
  | .mixed11 => a.ae.toList
  | .mixed29 => a.ae.toList

/-- The host duty on received frames (R16, D47): the ID within its width and at most `FRAME_MAX` bytes. -/
def frameWithinDuty (f : Frame) : Bool :=
  decide (f.id ≤ idMax f.ext) && decide (f.data.length ≤ Config.frameMax)

/-! ## Frames the block sends -/

/-- `tx_id(target)` (R140). -/
def Addr.txId (a : Addr) : Target → Nat
  | .physical => a.txPhys
  | .functional => a.txFunc

/-- `pad(bytes, target_len, pad_byte)` (R165). -/
def pad (bytes : List Byte) (targetLen : Nat) (padByte : Option Byte) : List Byte :=
  match padByte with
  | some b => if bytes.length < targetLen then bytes ++ List.replicate (targetLen - bytes.length) b else bytes
  | none => bytes

/-- `make_frame(id, bytes)` (R164). -/
def makeFrame (a : Addr) (snap : Params) (id : Nat) (bytes : List Byte) : Frame :=
  { id := id, ext := a.is29, data := pad bytes snap.llDataLength snap.txPadding }

end Sys2Proof.Machine
end

