-- ==== Sys2Proof/Machine/Flags.lean ====
section
/-! DEFINITION. Machine/Flags.lean: the outputs that are functions of state (R53, R286) and the segment capacities and frame kinds
of the segmenter (41_codec.md R170 to R174). -/

namespace Sys2Proof.Machine

/-- `available()` (R53, R283). -/
def State.availableOut (s : State) : Bool := !s.rxQueue.isEmpty

/-- `transmitting()` (R53, R284). -/
def State.transmittingOut (s : State) : Bool := decide (s.tx.state ≠ .idle) || !s.txQueue.isEmpty

/-- `recommended_idle_sleep()` (R286). -/
def State.idleSleepOut (s : State) : Nat :=
  match s.rx.state, s.tx.state with
  | .idle, .idle => s.cfg.sleepIdle
  | .idle, .waitFc => s.cfg.sleepWaitFc
  | .idle, .txCf => s.cfg.sleepActive
  | .waitCf, _ => s.cfg.sleepActive

/-- `cap_sf` (R170), over the integers. -/
def capSf (ll p : Nat) : Int := min ((ll : Int) - 1 - p) 15

/-- `cap_ff` (R171), over the integers. -/
def capFf (ll p : Nat) : Int := (ll : Int) - 2 - p

/-- `cap_cf` (R172), over the integers. -/
def capCf (ll p : Nat) : Int := (ll : Int) - 1 - p

/-- How a message is framed (R173). -/
inductive FrameKind where
  | single | multi | untransmittable
  deriving DecidableEq, Repr

/-- `kind(L)` (R173). -/
def frameKind (ll p len : Nat) : FrameKind :=
  if (len : Int) ≤ capSf ll p then .single
  else if 1 ≤ capCf ll p ∧ 0 ≤ capFf ll p ∧ capFf ll p < len then .multi
  else .untransmittable

/-- `ncf(L)` (R174): the number of Consecutive Frames of a `MULTI` message, the quotient rounded up. -/
def ncf (ll p len : Nat) : Nat := (len - (capFf ll p).toNat + (capCf ll p).toNat - 1) / (capCf ll p).toNat

end Sys2Proof.Machine
end

