-- ==== Sys2Proof/Machine/Create.lean ====
section
/-! DEFINITION. Machine/Create.lean: `CREATE.<mode>` (44_host.md R260, R261). -/

namespace Sys2Proof.Machine

/-- `create(mode, f)` (R260): refused when a session exists (R261); on an invalid address nothing is written. -/
def create (m : Mode) (f : AddrFields) (s : State) : Out :=
  betweenTicks s <|
    match s.addr with
    | some _ => .next (s.answer .illegalCommand)
    | none =>
      match resolve m f with
      | none => .next (s.answer .invalidAddressConfig)
      | some a => .next ((sessionReset { s with addr := some a }).answer .ok)

/-- `CREATE.Normal11`. -/
def execCreateNormal11 (f : AddrFields) (s : State) : Out := create .normal11 f s

/-- `CREATE.Normal29`. -/
def execCreateNormal29 (f : AddrFields) (s : State) : Out := create .normal29 f s

/-- `CREATE.NormalFixed29`. -/
def execCreateNormalFixed29 (f : AddrFields) (s : State) : Out := create .normalFixed29 f s

/-- `CREATE.Extended11`. -/
def execCreateExtended11 (f : AddrFields) (s : State) : Out := create .extended11 f s

/-- `CREATE.Extended29`. -/
def execCreateExtended29 (f : AddrFields) (s : State) : Out := create .extended29 f s

/-- `CREATE.Mixed11`. -/
def execCreateMixed11 (f : AddrFields) (s : State) : Out := create .mixed11 f s

/-- `CREATE.Mixed29`. -/
def execCreateMixed29 (f : AddrFields) (s : State) : Out := create .mixed29 f s

end Sys2Proof.Machine
end

