-- ==== Sys2Proof/Machine/HostCommands.lean ====
section
/-! DEFINITION. Machine/HostCommands.lean: `SUBMIT`, `POLL`, `RESET` and the status outputs (44_host.md R264 to R286). -/

namespace Sys2Proof.Machine

/-- The statuses of `submit` in the order of its checks (R264): length, then functional, then queue. -/
def submitStatus (m : List Byte) (target : Target) (s : State) : Status :=
  if m.length = 0 ∨ Config.maxMsgLen < m.length then .invalidLength
  else if target = .functional ∧ capSf s.params.llDataLength s.prefixLen < m.length then .functionalMultiFrame
  else if s.cfg.txqDepth ≤ s.txQueue.length then .queueFull
  else .ok

/-- `submit(m, target)` (R264): only an accepted message writes anything, and only `tx_queue`. The functional check reads the live
parameters (R291). -/
def submit (m : List Byte) (target : Target) (s : State) : Out :=
  whenConfigured s <|
    match submitStatus m target s with
    | .ok => .next (State.answer { s with txQueue := s.txQueue ++ [⟨m, target⟩] } .ok)
    | status => .next (s.answer status)

/-- `SUBMIT.PHYS`. -/
def execSubmitPhys (payload : List Byte) (s : State) : Out := submit payload .physical s

/-- `SUBMIT.FUNC`. -/
def execSubmitFunc (payload : List Byte) (s : State) : Out := submit payload .functional s

/-- `POLL` (R268): status OK with the oldest message or none. -/
def execPoll (s : State) : Out :=
  whenConfigured s <|
    match s.rxQueue with
    | [] => .next (s.answer .ok .noMessage)
    | m :: rest => .next (State.answer { s with rxQueue := rest } .ok (.message m))

/-- `RESET` (R280): `addr` and `params` are unchanged; nothing is emitted or reported. -/
def execReset (s : State) : Out :=
  betweenTicks s <| whenConfigured s <| .next ((sessionReset s).answer .ok)

/-- `AVAILABLE` (R283). -/
def execAvailable (s : State) : Out :=
  whenConfigured s <| .next (s.answer .ok (.bool s.availableOut))

/-- `TRANSMITTING` (R284): issued only between ticks (R323). -/
def execTransmitting (s : State) : Out :=
  betweenTicks s <| whenConfigured s <| .next (s.answer .ok (.bool s.transmittingOut))

/-- `IDLE_SLEEP` (R286): issued only between ticks (R323). -/
def execIdleSleep (s : State) : Out :=
  betweenTicks s <| whenConfigured s <| .next (s.answer .ok (.ms s.idleSleepOut))

end Sys2Proof.Machine
end

