-- ==== Sys2Proof/Machine/Process.lean ====
section
/-! DEFINITION. Machine/Process.lean: `PROCESS` (44_host.md R271). The command takes the snapshot and the time, runs the
consecutive-frame timeout check and puts the tick engine at the drain; the drain, frame by frame, and the transmit phase, micro-step by
micro-step, are the engine's own steps (Machine/Fetch.lean, Machine/Transmit.lean), because R323 lets `SUBMIT`, `POLL` and `AVAILABLE`
of another thread take effect between any two of them. The engine returns OK when the transmit phase ends. -/

namespace Sys2Proof.Machine

/-- `rx_timeout_check()` (R180). -/
def rxTimeoutCheck (s : State) : State :=
  if s.rx.state = .waitCf ∧ s.rx.cfTimer.expired s.now s.snap.rxConsecutiveFrameTimeout = true then
    rxToIdle (s.report .consecutiveFrameTimeout)
  else s

/-- The start of a tick: `snap <- params` (R52, R271), the time sampled once (D2), the timeout check, then the drain. The
calling thread is inside the tick until it ends (R328). -/
def startTick (now : Nat) (s : State) : State :=
  { rxTimeoutCheck { s with now := now, snap := s.params } with phase := .drain, driver := s.caller }

/-- `PROCESS now` (R271): `now` may not decrease (R272). -/
def execProcess (now : Nat) (s : State) : Out :=
  betweenTicks s <| whenConfigured s <|
    if now < s.now then .refused .timeDecreased else .next (startTick now s)

end Sys2Proof.Machine
end

