-- ==== Sys2Proof/Machine/Receive.lean ====
section
/-! DEFINITION. Machine/Receive.lean: the effect of every inbound PDU in every receive state (42_receive.md R185 to R198). `now` and
`snap` are those of the running tick. -/

namespace Sys2Proof.Machine

/-- `rx_malformed(f)` (R187): a frame that passed the filter and did not decode. -/
def rxMalformed (data : List Byte) (s : State) : State :=
  match s.rx.state with
  | .idle => s.report (.malformedFrame data)
  | .waitCf => rxToIdle (s.report (.malformedFrame data))

/-- `rx_sf_idle` (R188) and `rx_sf_busy` (R194). -/
def rxSf (d : List Byte) (s : State) : State :=
  match s.rx.state with
  | .idle => deliver d s
  | .waitCf => deliver d (rxToIdle (s.report .receptionInterruptedBySingleFrame))

/-- `rx_ff_idle(L, d)` (R191). -/
def rxFfIdle (len : FfLength) (d : List Byte) (s : State) : State :=
  { s with
    rx := { s.rx with state := .waitCf, len := len, buf := d, lastSeq := 0, blockCnt := 0, cfTimer := .armed s.now }
    fcRequest := true }

/-- `rx_ff_idle` (R191) and `rx_ff_busy` (R192). -/
def rxFf (len : FfLength) (d : List Byte) (s : State) : State :=
  match s.rx.state with
  | .idle => rxFfIdle len d s
  | .waitCf => rxFfIdle len d (rxToIdle (s.report .receptionInterruptedByNewFirstFrame))

/-- `rx_block_step()` (R198). -/
def rxBlockStep (s : State) : State :=
  if s.snap.blocksize = 0 then s
  else if s.snap.blocksize.toNat ≤ s.rx.blockCnt + 1 then
    { s with fcRequest := true, rx := { s.rx with blockCnt := 0 } }
  else { s with rx := { s.rx with blockCnt := s.rx.blockCnt + 1 } }

/-- The buffer after an accepted chunk: `rx_buf ++ take(min(rx_len − |rx_buf|, |d|), d)` (R196). -/
def rxAppended (rx : RxRegs) (d : List Byte) : List Byte :=
  rx.buf ++ d.take (min (rx.len.toNat - rx.buf.length) d.length)

/-- `rx_cf_accept(n, d)` (R196). -/
def rxCfAccept (n : Nibble) (d : List Byte) (s : State) : State :=
  let s' := { s with rx := { s.rx with lastSeq := n, cfTimer := .armed s.now, buf := rxAppended s.rx d } }
  if s'.rx.len.toNat ≤ s'.rx.buf.length then rxToIdle (deliver s'.rx.buf s') else rxBlockStep s'

/-- `rx_cf_wrong(expected, n)` (R197). -/
def rxCfWrong (expected n : Nibble) (s : State) : State := (rxToIdle s).report (.wrongSequenceNumber expected n)

/-- `rx_cf_idle(n)` (R190) and `rx_cf_busy(n, d)` (R195): 4-bit addition is the `mod 16` of the sequence counter. -/
def rxCf (n : Nibble) (d : List Byte) (s : State) : State :=
  match s.rx.state with
  | .idle => s.report (.unexpectedConsecutiveFrame n)
  | .waitCf => if n = s.rx.lastSeq + 1 then rxCfAccept n d s else rxCfWrong (s.rx.lastSeq + 1) n s

/-- `rx_fc(fc)` (R189): the slot is overwritten; while receiving, the timer is restarted. -/
def rxFc (fc : FlowControl) (s : State) : State :=
  match s.rx.state with
  | .idle => { s with fcSlot := some fc }
  | .waitCf => armRxCf { s with fcSlot := some fc }

/-- The Flow Control record of a PDU (R155, R156). -/
def flowControl (status : FlowStatus) (bs : Byte) (st : StminCode) : FlowControl :=
  { status := status, bs := bs, stminRaw := st.raw, stminMs := st.toMs }

/-- A received Single Frame (R188, R194). -/
def execSf (d : List Byte) (s : State) : Out := .next (rxSf d s)

/-- A received First Frame (R191, R192). -/
def execFf (len : FfLength) (d : List Byte) (s : State) : Out := .next (rxFf len d s)

/-- A received Consecutive Frame (R190, R195 to R198). -/
def execCf (n : Nibble) (d : List Byte) (s : State) : Out := .next (rxCf n d s)

/-- A received ContinueToSend (R189): the transmit phase of the same tick acts on it (R225, R226, R228). -/
def execFcCts (bs : Byte) (st : StminCode) (s : State) : Out := .next (rxFc (flowControl .cts bs st) s)

/-- A received Wait (R189): the transmit phase of the same tick acts on it (R225, R226, R227). -/
def execFcWait (bs : Byte) (st : StminCode) (s : State) : Out := .next (rxFc (flowControl .wait bs st) s)

/-- A received Overflow (R189): the transmit phase of the same tick acts on it (R225, R226, R236). -/
def execFcOvflw (bs : Byte) (st : StminCode) (s : State) : Out := .next (rxFc (flowControl .ovflw bs st) s)

end Sys2Proof.Machine
end

