-- ==== Sys2Proof/Machine/SetParam.lean ====
section
/-! DEFINITION. Machine/SetParam.lean: `SET_PARAM.<field>` (44_host.md R290; legality 10_state.md R44). Allowed in both lifecycle
states (R262). -/

namespace Sys2Proof.Machine

/-- `set_param(sel, v)` (R290): an illegal value (`none`) leaves the record as it was; a legal one is written to one field. -/
def setParam {α : Type} (legal : Option α) (write : Params → α → Params) (s : State) : Out :=
  betweenTicks s <|
    match legal with
    | none => .next (s.answer .configValidation)
    | some x => .next (State.answer { s with params := write s.params x } .ok)

/-- `SET_PARAM.stmin`. -/
def execSetStmin (v : ParamValue) (s : State) : Out :=
  setParam (paramByte v) (fun p x => { p with stmin := x }) s

/-- `SET_PARAM.blocksize`. -/
def execSetBlocksize (v : ParamValue) (s : State) : Out :=
  setParam (paramByte v) (fun p x => { p with blocksize := x }) s

/-- `SET_PARAM.squash_timing`. -/
def execSetSquashTiming (v : ParamValue) (s : State) : Out :=
  setParam (paramBool v) (fun p x => { p with squashTiming := x }) s

/-- `SET_PARAM.rx_flowcontrol_timeout`. -/
def execSetRxFlowcontrolTimeout (v : ParamValue) (s : State) : Out :=
  setParam (paramNat s.cfg v) (fun p x => { p with rxFlowcontrolTimeout := x }) s

/-- `SET_PARAM.rx_consecutive_frame_timeout`. -/
def execSetRxConsecutiveFrameTimeout (v : ParamValue) (s : State) : Out :=
  setParam (paramNat s.cfg v) (fun p x => { p with rxConsecutiveFrameTimeout := x }) s

/-- `SET_PARAM.tx_padding`. -/
def execSetTxPadding (v : ParamValue) (s : State) : Out :=
  setParam (paramPadding v) (fun p x => { p with txPadding := x }) s

/-- `SET_PARAM.max_wait_frames`. -/
def execSetMaxWaitFrames (v : ParamValue) (s : State) : Out :=
  setParam (paramNat s.cfg v) (fun p x => { p with maxWaitFrames := x }) s

/-- `SET_PARAM.ll_data_length`. -/
def execSetLlDataLength (v : ParamValue) (s : State) : Out :=
  setParam (paramNat s.cfg v) (fun p x => { p with llDataLength := x }) s

end Sys2Proof.Machine
end

