-- ==== Sys2Proof/Machine/Dispatch.lean ====
section
/-! DEFINITION. Machine/Dispatch.lean: one arm per instruction. -/

namespace Sys2Proof.Machine

def exec (i : Instr) (s : State) : Host.Outcome State Fault Refusal :=
  match i with
  | .submitPhys payload => Sys2Proof.Machine.execSubmitPhys payload s
  | .submitFunc payload => Sys2Proof.Machine.execSubmitFunc payload s
  | .poll => Sys2Proof.Machine.execPoll s
  | .process now => Sys2Proof.Machine.execProcess now s
  | .reset => Sys2Proof.Machine.execReset s
  | .available => Sys2Proof.Machine.execAvailable s
  | .transmitting => Sys2Proof.Machine.execTransmitting s
  | .idleSleep => Sys2Proof.Machine.execIdleSleep s
  | .setStmin v => Sys2Proof.Machine.execSetStmin v s
  | .setBlocksize v => Sys2Proof.Machine.execSetBlocksize v s
  | .setSquashTiming v => Sys2Proof.Machine.execSetSquashTiming v s
  | .setRxFlowcontrolTimeout v => Sys2Proof.Machine.execSetRxFlowcontrolTimeout v s
  | .setRxConsecutiveFrameTimeout v => Sys2Proof.Machine.execSetRxConsecutiveFrameTimeout v s
  | .setTxPadding v => Sys2Proof.Machine.execSetTxPadding v s
  | .setMaxWaitFrames v => Sys2Proof.Machine.execSetMaxWaitFrames v s
  | .setLlDataLength v => Sys2Proof.Machine.execSetLlDataLength v s
  | .createNormal11 f => Sys2Proof.Machine.execCreateNormal11 f s
  | .createNormal29 f => Sys2Proof.Machine.execCreateNormal29 f s
  | .createNormalFixed29 f => Sys2Proof.Machine.execCreateNormalFixed29 f s
  | .createExtended11 f => Sys2Proof.Machine.execCreateExtended11 f s
  | .createExtended29 f => Sys2Proof.Machine.execCreateExtended29 f s
  | .createMixed11 f => Sys2Proof.Machine.execCreateMixed11 f s
  | .createMixed29 f => Sys2Proof.Machine.execCreateMixed29 f s
  | .sf data => Sys2Proof.Machine.execSf data s
  | .ff length data => Sys2Proof.Machine.execFf length data s
  | .cf sn data => Sys2Proof.Machine.execCf sn data s
  | .fcCts bs stmin => Sys2Proof.Machine.execFcCts bs stmin s
  | .fcWait bs stmin => Sys2Proof.Machine.execFcWait bs stmin s
  | .fcOvflw bs stmin => Sys2Proof.Machine.execFcOvflw bs stmin s

end Sys2Proof.Machine
end

