-- ==== Sys2Proof/Machine/Transmit.lean ====
section
/-! DEFINITION. Machine/Transmit.lean: the transmit phase of the tick engine (43_transmit.md R220 to R236): one micro-step, and the
repetition of it that ends the tick. -/

namespace Sys2Proof.Machine

/-- `send_own_fc()` (R224). -/
def sendOwnFc (a : Addr) (s : State) : State :=
  State.emit { s with fcRequest := false }
    (makeFrame a s.snap a.txPhys (encodeFc a.pfx .cts s.snap.blocksize s.snap.stmin))

/-- `tx_fc_idle(fc)` (R226). -/
def txFcIdle (fc : FlowControl) (s : State) : State := s.report (.unexpectedFlowControl fc.status)

/-- `tx_fc_wait()` (R227). -/
def txFcWait (s : State) : State :=
  if s.snap.maxWaitFrames = 0 then txToIdle (s.report .unsupportedWaitFrame)
  else if s.snap.maxWaitFrames ≤ s.tx.waitCnt then txToIdle (s.report .maximumWaitFramesReached)
  else armTxFc { s with tx := { s.tx with waitCnt := s.tx.waitCnt + 1, state := .waitFc } }

/-- The effect of an accepted ContinueToSend (R228). -/
def txCtsAccept (fc : FlowControl) (s : State) : State :=
  let adopted := { s.tx with waitCnt := 0, fcTimer := .disarmed, peerBs := fc.bs, peerStminMs := fc.stminMs, state := .txCf }
  if s.tx.state = .waitFc then { s with tx := { adopted with blockCnt := 0, stminTimer := .armed s.now } }
  else { s with tx := adopted }

/-- `tx_fc_cts(fc)` (R228): dropped when the flow-control timer has expired. -/
def txFcCts (fc : FlowControl) (s : State) : State :=
  if s.tx.fcTimer.expired s.now s.snap.rxFlowcontrolTimeout then s else txCtsAccept fc s

/-- `tx_fc_overflow()` (R236). -/
def txFcOverflow (s : State) : State := txToIdle (s.report .flowControlOverflow)

/-- `tx_handle_fc(fc)` (R225). -/
def txHandleFc (fc : FlowControl) (s : State) : State :=
  if s.tx.state = .idle then txFcIdle fc s
  else
    match fc.status with
    | .cts => txFcCts fc s
    | .wait => txFcWait s
    | .ovflw => txFcOverflow s

/-- The Flow Control of the slot is consumed (R223, R225). -/
def txConsumeSlot (s : State) : State :=
  match s.fcSlot with
  | some fc => txHandleFc fc { s with fcSlot := none }
  | none => s

/-- The flow-control timeout (R229). -/
def txTimeoutCheck (s : State) : State :=
  if s.tx.fcTimer.expired s.now s.snap.rxFlowcontrolTimeout then txToIdle (s.report .flowControlTimeout) else s

/-- `tx_untransmittable(L)` (R232). -/
def txUntransmittable (len : Nat) (s : State) : State := s.report (.untransmittableMessage len)

/-- `tx_first_frame(m)` (R231). -/
def txFirstFrame (a : Addr) (m : List Byte) (s : State) : State :=
  let cap := (capFf s.snap.llDataLength a.pfx.length).toNat
  let s' := s.emit (makeFrame a s.snap a.txPhys (encodeFf a.pfx (BitVec.ofNat 12 m.length) (m.take cap)))
  armTxFc { s' with tx := { s'.tx with buf := m.drop cap, seq := 1, blockCnt := 0, waitCnt := 0, state := .waitFc } }

/-- `tx_start(msg)` (R230). -/
def txStart (a : Addr) (msg : TxMessage) (s : State) : State :=
  match frameKind s.snap.llDataLength a.pfx.length msg.payload.length with
  | .single => s.emit (makeFrame a s.snap (a.txId msg.target) (encodeSf a.pfx msg.payload))
  | .multi =>
    match msg.target with
    | .functional => txUntransmittable msg.payload.length s
    | .physical => txFirstFrame a msg.payload s
  | .untransmittable => txUntransmittable msg.payload.length s

/-- `tx_block_end()` (R235). -/
def txBlockEnd (s : State) : State :=
  if s.tx.peerBs ≠ 0 ∧ s.tx.peerBs.toNat ≤ s.tx.blockCnt then
    armTxFc { s with tx := { s.tx with state := .waitFc } }
  else s

/-- `tx_send_cf()` (R233, R234): in every case progress. -/
def txSendCf (a : Addr) (s : State) : State :=
  if capCf s.snap.llDataLength a.pfx.length < 1 then txToIdle (s.report (.untransmittableMessage s.tx.buf.length))
  else
    let cap := (capCf s.snap.llDataLength a.pfx.length).toNat
    let s1 := s.emit (makeFrame a s.snap a.txPhys (encodeCf a.pfx s.tx.seq (s.tx.buf.take cap)))
    let s2 := armTxStmin { s1 with
      tx := { s1.tx with buf := s1.tx.buf.drop cap, seq := s1.tx.seq + 1, blockCnt := s1.tx.blockCnt + 1 } }
    if s2.tx.buf = [] then txToIdle s2 else txBlockEnd s2

/-- A Consecutive Frame is due (R233). -/
def txCfDue (s : State) : Bool := s.snap.squashTiming || s.tx.stminTimer.expired s.now s.tx.peerStminMs

/-- The state machine's case of `tx_step()` (R223), with whether it made progress. -/
def txAdvance (a : Addr) (s : State) : State × Bool :=
  match s.tx.state with
  | .idle =>
    match s.txQueue with
    | [] => (s, false)
    | msg :: rest => (txStart a msg { s with txQueue := rest }, true)
  | .waitFc => (s, false)
  | .txCf => if txCfDue s then (txSendCf a s, true) else (s, false)

/-- `tx_step()` (R223): this block's own Flow Control first; else the slot, the timeout and the state machine, in that order. -/
def txStep (a : Addr) (s : State) : State × Bool :=
  if s.fcRequest then (sendOwnFc a s, true) else txAdvance a (txTimeoutCheck (txConsumeSlot s))

/-- The end of the tick: `process()` returns OK (R271) to the thread that called it (R328). -/
def endTick (s : State) : State :=
  { s with phase := .idle, results := s.results ++ [⟨s.driver, .ok, .nothing⟩] }

/-- One round of `tx_phase()` (R220): the phase, and with it the tick, ends with the first micro-step that makes no progress. -/
def txRound (a : Addr) (s : State) : State :=
  match txStep a s with
  | (s', true) => s'
  | (s', false) => endTick s'

end Sys2Proof.Machine
end

