-- ==== Sys2Proof/Machine/Fetch.lean ====
section
/-! DEFINITION. Machine/Fetch.lean: what the coming step does: an instruction to run (a host command of either thread, or the PDU of
a received frame), or a step of the block that runs no instruction. -/

namespace Sys2Proof.Machine

/-- What a step found. -/
inductive Fetched where
  /-- Run `i` at `s`. -/
  | run (i : Instr) (s : State)
  /-- The step runs no instruction; this is its answer. -/
  | done (o : Out)

/-- A command word of a thread: the instruction it decodes to; a reserved opcode changes no state and returns `IllegalCommand`, always
(R105, R262, R292); a word that is no command term is refused (93_implementation_defined.md, Part 1). -/
def fetchCommand (who : Agent) (word : List Tok) (s : State) : Fetched :=
  let s' := { s with caller := who }
  match decodeHost word with
  | .ok i => .run i s'
  | .error (.reservedOpcode _) => .done (.next (s'.answer .illegalCommand))
  | .error .noOpcode => .done (.refused .badCommandWord)
  | .error (.badOperands _) => .done (.refused .badCommandWord)
  | .error (.malformed _) => .done (.refused .badCommandWord)

/-- Between ticks the next line of the host's program is taken (R108); without one nothing changes (R330). -/
def fetchLine (s : State) : Fetched :=
  match s.host1 with
  | [] => .done (.next s)
  | .command w :: rest => fetchCommand .first w { s with host1 := rest }
  | .rx f :: rest => .done (.next { s with host1 := rest, rxPort := s.rxPort ++ [f] })

/-- One received frame (R185): filtered, decoded, and its PDU run; dropped silently when it is not for this session (R132); reported
when it is malformed (R187). A frame outside the host duty has no move (U19). -/
def fetchFrame (a : Addr) (f : Frame) (s : State) : Fetched :=
  if frameWithinDuty f = false then .done (.refused .frameOutsideDuty)
  else if isForMe a f = false then .done (.next s)
  else
    match decodePdu f.data a.pfx.length s.snap.llDataLength with
    | .ok i => .run i s
    | .error _ => .done (.next (rxMalformed f.data s))

/-- The drain (R183): `receive()` gives the next frame, or none, which ends the drain (R184). -/
def fetchDrain (a : Addr) (s : State) : Fetched :=
  match s.rxPort with
  | [] => .done (.next { s with phase := .transmit })
  | f :: rest => fetchFrame a f { s with rxPort := rest }

/-- A step of the tick engine (R271); between ticks, the next line of the host's program. -/
def fetchEngine (s : State) : Fetched :=
  match s.phase, s.addr with
  | .idle, _ => fetchLine s
  | .drain, some a => fetchDrain a s
  | .transmit, some a => .done (.next (txRound a s))
  | .drain, none => .done (.refused .tickWithoutSession)
  | .transmit, none => .done (.refused .tickWithoutSession)

/-- The command word a thread issues next, and the state without it; none where its next line is no command. -/
def State.nextCommand (who : Agent) (s : State) : Option (List Tok × State) :=
  match who with
  | .first =>
    match s.host1 with
    | .command w :: rest => some (w, { s with host1 := rest })
    | .rx _ :: _ => none
    | [] => none
  | .second =>
    match s.host2 with
    | w :: rest => some (w, { s with host2 := rest })
    | [] => none

/-- A thread's turn: the thread inside the running tick makes an engine step; any other issues its next command (R323, R328), and
where it has none, the step is the engine's. -/
def fetchTurn (who : Agent) (s : State) : Fetched :=
  if s.phase ≠ .idle ∧ s.driver = who then fetchEngine s
  else
    match s.nextCommand who with
    | some (w, s') => fetchCommand who w s'
    | none => fetchEngine s

/-- What the coming step does: `turn` says which thread moves (R323). -/
def fetch (s : State) : Fetched :=
  match s.turn with
  | [] => fetchEngine s
  | who :: ts => fetchTurn who { s with turn := ts }

/-! ## Placing a word where the next step fetches it -/

/-- The session a PDU word is run under when none exists: `Normal11`, both IDs 0 (log entry 3). -/
def tableAddr : Addr := configuredIds .normal11 false 0 0 [] none none none

/-- A frame with these PDU bytes, addressed to the session (R96, R132). -/
def Addr.frameFor (a : Addr) (bytes : List Byte) : Frame :=
  { id := a.rxPhys, ext := a.is29, data := a.rxPrefix ++ bytes }

/-- A host command word becomes the first thread's next line, between ticks. -/
def placeCommand (word : List Tok) (s : State) : State :=
  { s with turn := [], phase := .idle, host1 := .command word :: s.host1 }

/-- A PDU becomes the next frame of a running drain, under a link-layer length at which every SF length decodes. -/
def placePdu (bytes : List Byte) (s : State) : State :=
  let a := s.addr.getD tableAddr
  { s with
    turn := [], phase := .drain, addr := some a
    snap := { s.snap with llDataLength := tableLl + a.pfx.length }
    rxPort := a.frameFor bytes :: s.rxPort }

/-- Either kind of word (R14). -/
def placeCode (c : Code) (s : State) : State :=
  match c with
  | .host w => placeCommand w s
  | .pdu bytes => placePdu bytes s

end Sys2Proof.Machine
end

