-- ==== Sys2Proof/Machine/Step.lean ====
section
/-! DEFINITION. Machine/Step.lean: one step of the machine. -/

namespace Sys2Proof.Machine

/-- One step: the fetched instruction is run, or the block's own step is taken. -/
def step (s : State) : Host.Outcome State Fault Refusal :=
  match fetch s with
  | .run i s' => exec i s'
  | .done o => o

/-- `s` with a word of the opcode table stored where the next step fetches its instruction (log entry 3). -/
def State.withFetchWord (s : State) (nbits w : Nat) : State := placeCode (tableCode nbits w) s

end Sys2Proof.Machine
end

