-- ==== Sys2Proof/Safety.lean ====
section
/-! DEFINITION. Safety.lean: the terms claims are stated in: the legal operand fields of each mode (R121, R122), the invariant of
10_state.md R55, the tick as one function (44_host.md R271), the bound on its steps (43_transmit.md R221), and the segmentation of a
message (R239). -/

namespace Sys2Proof.Machine

/-! ## Legal addresses (R121, R122) -/

/-- The fields of R122. -/
inductive AddrField where
  | txid | rxid | ta | sa | ae
  deriving DecidableEq, Repr

/-- The operand of a field. -/
def AddrField.of (f : AddrFields) : AddrField → Option Nat
  | .txid => f.txid
  | .rxid => f.rxid
  | .ta => f.ta
  | .sa => f.sa
  | .ae => f.ae

/-- The 29-bit modes (R21). -/
def Mode.is29 : Mode → Bool
  | .normal11 | .extended11 | .mixed11 => false
  | .normal29 | .normalFixed29 | .extended29 | .mixed29 => true

/-- The table of R122. -/
def requiredFields : Mode → List AddrField
  | .normal11 => [.txid, .rxid]
  | .normal29 => [.txid, .rxid]
  | .normalFixed29 => [.ta, .sa]
  | .extended11 => [.txid, .rxid, .ta, .sa]
  | .extended29 => [.txid, .rxid, .ta, .sa]
  | .mixed11 => [.txid, .rxid, .ae]
  | .mixed29 => [.ta, .sa, .ae]

/-- The largest value of a required field (R121 b, c). -/
def fieldMax (m : Mode) : AddrField → Nat
  | .txid | .rxid => if Mode.is29 m then 0x1FFFFFFF else 0x7FF
  | .ta | .sa | .ae => 0xFF

/-- The fields on which `resolve` does not fail (R121). -/
def legalFields (m : Mode) (f : AddrFields) : Prop :=
  ∀ x ∈ requiredFields m, ∃ v, AddrField.of f x = some v ∧ v ≤ fieldMax m x

/-- `CREATE.<mode>` with the operands `f` (R106). -/
def createInstr (m : Mode) (f : AddrFields) : Instr :=
  match m with
  | .normal11 => .createNormal11 f
  | .normal29 => .createNormal29 f
  | .normalFixed29 => .createNormalFixed29 f
  | .extended11 => .createExtended11 f
  | .extended29 => .createExtended29 f
  | .mixed11 => .createMixed11 f
  | .mixed29 => .createMixed29 f

/-! ## Which step comes next -/

/-- While a tick runs, the coming step is the engine's: no other thread has the turn (R323). -/
def State.EngineMoves (s : State) : Prop := ∀ who, s.turn.head? = some who → who = s.driver

/-- The thread `who` has the turn: the list names it, or the list is empty, no tick runs, and it is the first. -/
def State.HasTurn (s : State) (who : Agent) : Prop :=
  s.turn.head? = some who ∨ (s.turn = [] ∧ s.phase = .idle ∧ who = .first)

/-- The coming step is the thread `who` issuing the command word `w`, and `s'` is the state with the word taken: between ticks, or while
a tick runs that another thread is inside of (R100, R323, R328). -/
def State.Issues (s : State) (who : Agent) (w : List Tok) (s' : State) : Prop :=
  s.HasTurn who ∧ (s.phase = .idle ∨ s.driver ≠ who) ∧
  match who with
  | .first => ∃ rest, s.host1 = .command w :: rest ∧ s' = { s with turn := s.turn.tail, host1 := rest, caller := .first }
  | .second => ∃ rest, s.host2 = w :: rest ∧ s' = { s with turn := s.turn.tail, host2 := rest, caller := .second }

/-- The coming step is a micro-step of the transmit phase of the session `a` (R220). -/
def State.InTransmit (s : State) (a : Addr) : Prop := s.phase = .transmit ∧ s.addr = some a ∧ s.turn = []

/-- The coming step receives the frame `f` of the session `a` (R183). -/
def State.Receives (s : State) (a : Addr) (f : Frame) (rest : List Frame) : Prop :=
  s.phase = .drain ∧ s.addr = some a ∧ s.turn = [] ∧ s.rxPort = f :: rest ∧ frameWithinDuty f = true

/-- A micro-step that does not begin with the handshake: no own Flow Control pending, none from the peer in the slot, and the
flow-control timer not expired (R223). -/
def State.NoHandshake (s : State) : Prop :=
  s.fcRequest = false ∧ s.fcSlot = none ∧ s.tx.fcTimer.expired s.now s.snap.rxFlowcontrolTimeout = false

/-! ## The invariant -/

/-- A Parameters record every field of which passes its validation (R44). -/
def Params.Legal (c : Config) (p : Params) : Prop :=
  p.rxFlowcontrolTimeout ≤ c.paramMax ∧ p.rxConsecutiveFrameTimeout ≤ c.paramMax ∧
  p.maxWaitFrames ≤ c.paramMax ∧ p.llDataLength ≤ c.paramMax

/-- A timer that is disarmed or was armed at or before `now`: a time difference is never negative (R8). -/
def Timer.NotAhead (now : Nat) : Timer → Prop
  | .disarmed => True
  | .armed start => start ≤ now

/-- The receive registers of R55 (1, 5) with their widths (R26 to R30): Idle is the reset value of all of them. -/
structure RxRegs.Ok (now : Nat) (r : RxRegs) : Prop where
  idle : r.state = .idle → r = RxRegs.reset
  waiting : r.state = .waitCf → r.cfTimer.isArmed = true ∧ r.buf.length ≤ r.len.toNat
  blockCnt : r.blockCnt ≤ 254
  timer : r.cfTimer.NotAhead now

/-- The transmit registers of R55 (2 to 4) with their widths (R33 to R39). -/
structure TxRegs.Ok (c : Config) (now : Nat) (t : TxRegs) : Prop where
  idle : t.state = .idle → t = TxRegs.reset
  active : t.state ≠ .idle → t.buf ≠ []
  waiting : t.state = .waitFc → t.fcTimer.isArmed = true
  sending : t.state = .txCf → t.fcTimer = .disarmed ∧ t.stminTimer.isArmed = true
  count : t.blockCnt + t.buf.length ≤ Config.maxMsgLen
  waits : t.waitCnt ≤ c.paramMax
  separation : t.peerStminMs ≤ 127
  fcTimer : t.fcTimer.NotAhead now
  stminTimer : t.stminTimer.NotAhead now

/-- The invariant of every step (R55, R40, R41, R43): what R55 says between ticks, and what a running tick keeps. -/
structure State.Inv (s : State) : Prop where
  rx : s.rx.Ok s.now
  tx : s.tx.Ok s.cfg s.now
  /-- R55 (6): a request belongs to a reassembly, and none is left between ticks. -/
  request : s.fcRequest = true → s.rx.state = .waitCf ∧ s.phase ≠ .idle
  /-- R55 (6), R156: the slot is empty between ticks. -/
  slot : ∀ fc, s.fcSlot = some fc → s.phase ≠ .idle ∧ fc.stminMs ≤ 127
  /-- R55 (7), R40. -/
  txQueue : s.txQueue.length ≤ s.cfg.txqDepth
  txPayloads : ∀ m ∈ s.txQueue, 1 ≤ m.payload.length ∧ m.payload.length ≤ Config.maxMsgLen
  /-- R55 (7), R41. -/
  rxQueue : s.rxQueue.length ≤ s.cfg.rxqDepth
  rxMessages : ∀ m ∈ s.rxQueue, m.length ≤ Config.maxMsgLen
  params : s.params.Legal s.cfg
  snap : s.snap.Legal s.cfg
  /-- R21: the address is one `resolve` gives. -/
  addr : ∀ a, s.addr = some a → ∃ m f, resolve m f = some a
  /-- R20, R262: without a session no tick runs. -/
  session : s.addr = none → s.phase = .idle

/-! ## The tick as one function -/

/-- `rx_frame(f)` (R185). -/
def rxFrame (a : Addr) (s : State) (f : Frame) : State :=
  if isForMe a f then
    match decodePdu f.data a.pfx.length s.snap.llDataLength with
    | .error _ => rxMalformed f.data s
    | .ok i =>
      match exec i s with
      | .next t => t
      | .fault _ => s
      | .refused _ => s
  else s

/-- The loop of `rx_drain()` (R183) over the frames `receive()` gives. -/
def rxDrainFrom (a : Addr) : List Frame → State → State
  | [], s => s
  | f :: rest, s => rxDrainFrom a rest (rxFrame a { s with rxPort := rest } f)

/-- `rx_drain()` (R183). -/
def rxDrain (a : Addr) (s : State) : State := rxDrainFrom a s.rxPort s

/-- `tx_phase()` (R220), at most `fuel` micro-steps of it. -/
def txPhase (a : Addr) : Nat → State → State
  | 0, s => s
  | fuel + 1, s =>
    match txStep a s with
    | (s', true) => txPhase a fuel s'
    | (s', false) => s'

/-- What the progress steps of a transmit phase consume (R221): the request, the bytes buffered, a started transmission, and every
queued message. -/
def txWork (s : State) : Nat :=
  (if s.fcRequest then 1 else 0) + (if s.tx.state = .idle then 0 else 1) + s.tx.buf.length
    + (s.txQueue.map fun m => m.payload.length + 2).sum

/-- `process(now)` (R271): the snapshot and the timeout check, the drain, the transmit phase, and the answer OK. -/
def processTick (a : Addr) (now : Nat) (s : State) : State :=
  let drained := { rxDrain a (startTick now s) with phase := .transmit }
  endTick (txPhase a (txWork drained + 1) drained)

/-! ## Segmentation -/

/-- The Consecutive Frames of `n` chunks of `cap` bytes, numbered from `sn` modulo 16 (R239). -/
def cfSegments (cap : Nat) : Nat → Nibble → List Byte → List Instr
  | 0, _, _ => []
  | n + 1, sn, m => .cf sn (m.take cap) :: cfSegments cap n (sn + 1) (m.drop cap)

/-- The PDUs of a multi-frame message (R239): one First Frame with `cap_ff` bytes, then `ncf(L)` Consecutive Frames from number 1. -/
def segments (ll p : Nat) (m : List Byte) : List Instr :=
  .ff (BitVec.ofNat 12 m.length) (m.take (capFf ll p).toNat)
    :: cfSegments (capCf ll p).toNat (ncf ll p m.length) 1 (m.drop (capFf ll p).toNat)

/-- The frame that carries a Consecutive Frame's PDU of this session (R140, R164). -/
def cfFrames (a : Addr) (snap : Params) (cap : Nat) : Nat → Nibble → List Byte → List Frame
  | 0, _, _ => []
  | n + 1, sn, m =>
    makeFrame a snap a.txPhys (encodeCf a.pfx sn (m.take cap)) :: cfFrames a snap cap n (sn + 1) (m.drop cap)

/-- Several instructions one after another. -/
def execAll : List Instr → State → Host.Outcome State Fault Refusal
  | [], s => .next s
  | i :: rest, s =>
    match exec i s with
    | .next t => execAll rest t
    | .fault r => .fault r
    | .refused r => .refused r

end Sys2Proof.Machine
end

