-- ==== Sys2Proof/Certificates/Slice0/Obligations.lean ====
section
/-! DEFINITION. Certificates/Slice0/Obligations.lean: the statements for the provers. Each docstring names the rule of spec/ it
formalises. -/

open Sys2Proof Sys2Proof.Machine

/-! ## Encodings -/

/-- Words written out from R82 to R86 and R101 decode to the instructions they stand for. -/
def Obligations.SpecWordsDecode : Prop :=
  decodePdu [0x03, 0x01, 0x02, 0x03] 0 8 = .ok (.sf [0x01, 0x02, 0x03])
  ∧ decodePdu [0x11, 0x23, 0x00] 0 8 = .ok (.ff 0x123 [0x00])
  ∧ decodePdu [0xF1, 0x22, 0x01, 0x02] 1 8 = .ok (.cf 2 [0x01, 0x02])
  ∧ decodePdu [0x31, 0x05, 0x7F] 0 8 = .ok (.fcWait 5 (.ms 0x7F))
  ∧ decodeHost [.byte 0x01, .byte 0x00, .byte 0x02, .byte 0xAA, .byte 0xBB] = .ok (.submitPhys [0xAA, 0xBB])
  ∧ decodeHost [.byte 0x04, .int 10] = .ok (.process 10)
  ∧ decodeHost [.byte 0x15, .absent] = .ok (.setTxPadding none)
  ∧ decodeHost [.byte 0x20, .int 0x456, .int 0x123, .absent, .absent, .absent]
      = .ok (.createNormal11 ⟨some 0x456, some 0x123, none, none, none⟩)

/-- Decoding gives back every encodable instruction, with every operand, under every prefix: an SF also has to fit the link-layer
length (R152). -/
def Obligations.DecodeOfEncode : Prop :=
  ∀ (i : Instr) (pfx : List Byte) (maxLen : Nat), wellFormed i = true →
    (∀ d, i = .sf d → (d.length : Int) ≤ (maxLen : Int) - 1 - pfx.length) →
    decode pfx.length maxLen (encode pfx i) = .ok i

/-- Whatever decodes from a frame of at most `FRAME_MAX` bytes is a well-formed PDU. -/
def Obligations.DecodedPduWellFormed : Prop :=
  ∀ (data : List Byte) (p maxLen : Nat) (i : Instr), data.length ≤ Config.frameMax →
    decodePdu data p maxLen = .ok i → wellFormed i = true ∧ i.isPdu = true

/-- R97: the malformed encodings, each row of its table, and no others. -/
def Obligations.MalformedEncodingsExactly : Prop :=
  ∀ (data : List Byte) (p maxLen : Nat),
    (∃ why, decodePdu data p maxLen = .error (.malformed why)) ↔
      data.length ≤ p ∨
      ∃ (pre : List Byte) (b0 : Byte) (body : List Byte), data = pre ++ b0 :: body ∧ pre.length = p ∧
        (4 ≤ b0.toNat / 16
         ∨ (b0.toNat / 16 = 0 ∧ (b0.toNat % 16 = 0 ∨ (maxLen : Int) - 1 - p < (b0.toNat % 16 : Nat) ∨ body.length < b0.toNat % 16))
         ∨ (b0.toNat / 16 = 1 ∧ body.length < 1)
         ∨ (b0.toNat / 16 = 3 ∧ (body.length < 2 ∨ 3 ≤ b0.toNat % 16
              ∨ ∃ bs st tail, body = bs :: st :: tail ∧
                  ((0x80 ≤ st.toNat ∧ st.toNat ≤ 0xF0) ∨ 0xFA ≤ st.toNat))))

/-- R152 to R155: the fields of each PDU kind, for every prefix and every frame that is not malformed. -/
def Obligations.PduFieldsDecode : Prop :=
  ∀ (pre : List Byte) (b0 : Byte) (body : List Byte) (maxLen : Nat),
    (b0.toNat / 16 = 0 → 1 ≤ b0.toNat % 16 → ((b0.toNat % 16 : Nat) : Int) ≤ (maxLen : Int) - 1 - pre.length →
      b0.toNat % 16 ≤ body.length →
      decodePdu (pre ++ b0 :: body) pre.length maxLen = .ok (.sf (body.take (b0.toNat % 16))))
    ∧ (b0.toNat / 16 = 1 → ∀ b1 rest, body = b1 :: rest →
      ∃ len : FfLength, len.toNat = b0.toNat % 16 * 256 + b1.toNat ∧
        decodePdu (pre ++ b0 :: body) pre.length maxLen = .ok (.ff len (rest.take (min len.toNat rest.length))))
    ∧ (b0.toNat / 16 = 2 →
      ∃ sn : Nibble, sn.toNat = b0.toNat % 16 ∧ decodePdu (pre ++ b0 :: body) pre.length maxLen = .ok (.cf sn body))
    ∧ (b0.toNat / 16 = 3 → ∀ bs st tail, body = bs :: st :: tail →
        (st.toNat ≤ 0x7F ∨ (0xF1 ≤ st.toNat ∧ st.toNat ≤ 0xF9)) →
        ∃ code : StminCode, code.raw = st ∧ code.toMs = (if st.toNat ≤ 0x7F then st.toNat else 0) ∧
          (b0.toNat % 16 = 0 → decodePdu (pre ++ b0 :: body) pre.length maxLen = .ok (.fcCts bs code)) ∧
          (b0.toNat % 16 = 1 → decodePdu (pre ++ b0 :: body) pre.length maxLen = .ok (.fcWait bs code)) ∧
          (b0.toNat % 16 = 2 → decodePdu (pre ++ b0 :: body) pre.length maxLen = .ok (.fcOvflw bs code)))

/-- R105, R262, R292: the reserved host opcodes are exactly these, and a reserved opcode changes no state and returns `IllegalCommand`,
always: in both lifecycle states, to either thread, between ticks and while a tick runs. -/
def Obligations.ReservedOpcodeIllegal : Prop :=
  ∀ (op : Byte) (ts : List Tok),
    (decodeHost (.byte op :: ts) = .error (.reservedOpcode op) ↔
      op.toNat = 0 ∨ (0x09 ≤ op.toNat ∧ op.toNat ≤ 0x0F) ∨ (0x18 ≤ op.toNat ∧ op.toNat ≤ 0x1F) ∨ 0x27 ≤ op.toNat)
    ∧ ∀ (s s' : State) (who : Agent), s.Issues who (.byte op :: ts) s' →
        decodeHost (.byte op :: ts) = .error (.reservedOpcode op) →
        step s = .next { s' with results := s'.results ++ [⟨who, .illegalCommand, .nothing⟩] }

/-- R165: padding reaches the link-layer length, never truncates, and is off when no byte is set. -/
def Obligations.PaddingRule : Prop :=
  ∀ (bytes : List Byte) (ll : Nat),
    pad bytes ll none = bytes
    ∧ ∀ b, (ll ≤ bytes.length → pad bytes ll (some b) = bytes)
      ∧ (bytes.length < ll →
          (pad bytes ll (some b)).length = ll ∧ (pad bytes ll (some b)).take bytes.length = bytes ∧
          ∀ x ∈ (pad bytes ll (some b)).drop bytes.length, x = b)

/-- R173: for `p + 2 ≤ ll ≤ p + 16` no message is `UNTRANSMITTABLE`; a message is single exactly up to `ll − 1 − p` bytes. -/
def Obligations.EveryMessageFramedInRange : Prop :=
  ∀ ll p len : Nat, p + 2 ≤ ll → ll ≤ p + 16 →
    frameKind ll p len ≠ .untransmittable ∧ (frameKind ll p len = .single ↔ len + 1 + p ≤ ll)
    ∧ (frameKind ll p len = .multi → capFf ll p < len ∧ 1 ≤ capCf ll p ∧ capFf ll p = capSf ll p - 1)

/-- R11: a disarmed timer is not expired; an armed one is when its duration is 0 or has been exceeded. -/
def Obligations.TimerExpiry : Prop :=
  ∀ (now d start : Nat),
    Timer.expired .disarmed now d = false
    ∧ (Timer.expired (.armed start) now d = true ↔ d = 0 ∨ (now : Int) - start > d)

/-- R103, R301: the status bytes, and the error codes 0x01 to 0x0F in the order of the table. -/
def Obligations.StatusAndErrorCodes : Prop :=
  [Status.ok, .invalidAddressConfig, .configValidation, .functionalMultiFrame, .invalidLength, .queueFull, .illegalCommand].map
      Status.code = [0x00, 0x01, 0x0C, 0x20, 0x21, 0x22, 0x2F]
  ∧ [ErrorKind.invalidAddressConfig, .malformedFrame, .unexpectedConsecutiveFrame, .wrongSequenceNumber,
      .receptionInterruptedByNewFirstFrame, .receptionInterruptedBySingleFrame, .consecutiveFrameTimeout, .flowControlTimeout,
      .unexpectedFlowControl, .unsupportedWaitFrame, .maximumWaitFramesReached, .configValidation, .flowControlOverflow,
      .untransmittableMessage, .rxQueueOverflow].map ErrorKind.code
    = [0x01, 0x02, 0x03, 0x04, 0x05, 0x06, 0x07, 0x08, 0x09, 0x0A, 0x0B, 0x0C, 0x0D, 0x0E, 0x0F]

/-! ## Addressing -/

/-- R121: `resolve` fails exactly when a required field is absent or out of its range; a field the mode does not require plays no part.
Which fields a mode requires is the table of R122, an inference of the spec's own: "[derived: from the source's per-mode descriptions of
the IDs and prefix in §3 and of the receive checks in §4.1; ...]". -/
def Obligations.ResolveValidates : Prop :=
  ∀ (m : Mode) (f : AddrFields), resolve m f = none ↔ ¬ legalFields m f

/-- R124 to R130: the resolved addresses, field by field. The byte positions and the swap in the IDs of `NormalFixed29` and `Mixed29` are
"[from general knowledge, not in source]" in R126 and R130, and PRESUMED in the model (log entry 12). -/
def Obligations.ResolveDerives : Prop :=
  ∀ (tx rx : Nat) (ta sa ae : Byte) (f : AddrFields),
    (tx ≤ 0x7FF → rx ≤ 0x7FF → f.txid = some tx → f.rxid = some rx →
      resolve .normal11 f = some ⟨.normal11, false, tx, tx, rx, rx, [], none, none, none, some rx⟩
      ∧ (f.ta = some ta.toNat → f.sa = some sa.toNat →
          resolve .extended11 f = some ⟨.extended11, false, tx, tx, rx, rx, [ta], some ta, some sa, none, some rx⟩)
      ∧ (f.ae = some ae.toNat →
          resolve .mixed11 f = some ⟨.mixed11, false, tx, tx, rx, rx, [ae], none, none, some ae, some rx⟩))
    ∧ (tx ≤ 0x1FFFFFFF → rx ≤ 0x1FFFFFFF → f.txid = some tx → f.rxid = some rx →
      resolve .normal29 f = some ⟨.normal29, true, tx, tx, rx, rx, [], none, none, none, some rx⟩
      ∧ (f.ta = some ta.toNat → f.sa = some sa.toNat →
          resolve .extended29 f = some ⟨.extended29, true, tx, tx, rx, rx, [ta], some ta, some sa, none, some rx⟩))
    ∧ (f.ta = some ta.toNat → f.sa = some sa.toNat →
      resolve .normalFixed29 f = some ⟨.normalFixed29, true,
        0x18DA0000 ||| ta.toNat <<< 8 ||| sa.toNat, 0x18DB0000 ||| ta.toNat <<< 8 ||| sa.toNat,
        0x18DA0000 ||| sa.toNat <<< 8 ||| ta.toNat, 0x18DB0000 ||| sa.toNat <<< 8 ||| ta.toNat,
        [], some ta, some sa, none, none⟩
      ∧ (f.ae = some ae.toNat →
          resolve .mixed29 f = some ⟨.mixed29, true,
            0x18CE0000 ||| ta.toNat <<< 8 ||| sa.toNat, 0x18CD0000 ||| ta.toNat <<< 8 ||| sa.toNat,
            0x18CE0000 ||| sa.toNat <<< 8 ||| ta.toNat, 0x18CD0000 ||| sa.toNat <<< 8 ||| ta.toNat,
            [ae], some ta, some sa, some ae, none⟩))

/-- R133 to R137: which frames a resolved session accepts. -/
def Obligations.ReceiveFilterAccepts : Prop :=
  ∀ (m : Mode) (f : AddrFields) (a : Addr) (fr : Frame), resolve m f = some a →
    (isForMe a fr = true ↔
      match m with
      | .normal11 => fr.ext = false ∧ f.rxid = some fr.id
      | .normal29 => fr.ext = true ∧ f.rxid = some fr.id
      | .normalFixed29 => fr.ext = true ∧ (fr.id / 65536 % 256 = 0xDA ∨ fr.id / 65536 % 256 = 0xDB)
          ∧ f.sa = some (fr.id / 256 % 256) ∧ f.ta = some (fr.id % 256)
      | .extended11 => fr.ext = false ∧ f.rxid = some fr.id ∧ ∃ b rest, fr.data = b :: rest ∧ f.sa = some b.toNat
      | .extended29 => fr.ext = true ∧ f.rxid = some fr.id ∧ ∃ b rest, fr.data = b :: rest ∧ f.sa = some b.toNat
      | .mixed11 => fr.ext = false ∧ f.rxid = some fr.id ∧ ∃ b rest, fr.data = b :: rest ∧ f.ae = some b.toNat
      | .mixed29 => fr.ext = true ∧ (fr.id / 65536 % 256 = 0xCE ∨ fr.id / 65536 % 256 = 0xCD)
          ∧ f.sa = some (fr.id / 256 % 256) ∧ f.ta = some (fr.id % 256)
          ∧ ∃ b rest, fr.data = b :: rest ∧ f.ae = some b.toNat)

/-- §8 of the source (95_test_vectors.md W8): every mode accepts frames on its own receive IDs and rejects the wrong ID width. -/
def Obligations.FilterAcceptsOwnIds : Prop :=
  ∀ (m : Mode) (f : AddrFields) (a : Addr) (d : List Byte), resolve m f = some a →
    isForMe a ⟨a.rxPhys, a.is29, a.rxPrefix ++ d⟩ = true
    ∧ isForMe a ⟨a.rxFunc, a.is29, a.rxPrefix ++ d⟩ = true
    ∧ ∀ id data, isForMe a ⟨id, !a.is29, data⟩ = false

/-! ## Host commands -/

/-- R264: `SUBMIT.PHYS` and `SUBMIT.FUNC` with a session, in the order of the checks; only an accepted message writes anything. -/
def Obligations.SubmitAnswers : Prop :=
  ∀ (m : List Byte) (s : State) (a : Addr), s.addr = some a →
    ((m.length = 0 ∨ 4095 < m.length) →
      exec (.submitPhys m) s = .next (s.answer .invalidLength) ∧ exec (.submitFunc m) s = .next (s.answer .invalidLength))
    ∧ (1 ≤ m.length → m.length ≤ 4095 →
      (s.cfg.txqDepth ≤ s.txQueue.length → exec (.submitPhys m) s = .next (s.answer .queueFull))
      ∧ (s.txQueue.length < s.cfg.txqDepth →
          exec (.submitPhys m) s = .next (State.answer { s with txQueue := s.txQueue ++ [⟨m, .physical⟩] } .ok))
      ∧ (min ((s.params.llDataLength : Int) - 1 - a.pfx.length) 15 < m.length →
          exec (.submitFunc m) s = .next (s.answer .functionalMultiFrame))
      ∧ ((m.length : Int) ≤ min ((s.params.llDataLength : Int) - 1 - a.pfx.length) 15 →
          (s.cfg.txqDepth ≤ s.txQueue.length → exec (.submitFunc m) s = .next (s.answer .queueFull))
          ∧ (s.txQueue.length < s.cfg.txqDepth →
              exec (.submitFunc m) s = .next (State.answer { s with txQueue := s.txQueue ++ [⟨m, .functional⟩] } .ok))))

/-- R268: `POLL` with a session removes and returns the oldest message, or returns none. -/
def Obligations.PollAnswers : Prop :=
  ∀ (s : State) (a : Addr), s.addr = some a →
    (s.rxQueue = [] → exec .poll s = .next (s.answer .ok .noMessage))
    ∧ ∀ m rest, s.rxQueue = m :: rest →
        exec .poll s = .next (State.answer { s with rxQueue := rest } .ok (.message m))

/-- R283, R284, R286: `AVAILABLE` (at any time), and between ticks `TRANSMITTING` and `IDLE_SLEEP`, return the functions of state and
change nothing. -/
def Obligations.StatusOutputsAnswer : Prop :=
  ∀ (s : State) (a : Addr), s.addr = some a →
    exec .available s = .next (s.answer .ok (.bool (decide (s.rxQueue ≠ []))))
    ∧ (s.phase = .idle →
        exec .transmitting s = .next (s.answer .ok (.bool (decide (s.tx.state ≠ .idle ∨ s.txQueue ≠ []))))
        ∧ exec .idleSleep s = .next (s.answer .ok (.ms
            (if s.rx.state = .idle ∧ s.tx.state = .idle then s.cfg.sleepIdle
             else if s.rx.state = .idle ∧ s.tx.state = .waitFc then s.cfg.sleepWaitFc else s.cfg.sleepActive))))
    ∧ s.cfg.sleepActive ≤ s.cfg.sleepWaitFc ∧ s.cfg.sleepWaitFc ≤ s.cfg.sleepIdle

/-- R280: `RESET` between ticks, from any state of a session: both sides Idle, buffers and queues emptied; `addr`, `params` and the
rest as they were; nothing emitted or reported. -/
def Obligations.ResetClearsSession : Prop :=
  ∀ (s : State) (a : Addr), s.addr = some a → s.phase = .idle →
    exec .reset s = .next { s with
      rx := ⟨.idle, [], 0, 0, 0, .disarmed⟩
      tx := ⟨.idle, [], 0, 0, 0, 0, 0, .disarmed, .disarmed⟩
      fcRequest := false, fcSlot := none, txQueue := [], rxQueue := []
      results := s.results ++ [⟨s.caller, .ok, .nothing⟩] }

/-- R281: a second `RESET` changes no register, queue or port. -/
def Obligations.ResetIdempotent : Prop :=
  ∀ s t u : State, s.configured = true → exec .reset s = .next t → exec .reset t = .next u →
    u = { t with results := t.results ++ [⟨t.caller, .ok, .nothing⟩] }

/-- R260, R261: `CREATE` of every mode between ticks: a second session is refused; an illegal address writes nothing; a legal one
stores the resolved address and leaves every session register at its reset value. -/
def Obligations.CreateAnswers : Prop :=
  ∀ (m : Mode) (f : AddrFields) (s : State), s.phase = .idle →
    (∀ b, s.addr = some b → exec (createInstr m f) s = .next (s.answer .illegalCommand))
    ∧ (s.addr = none → ¬ legalFields m f → exec (createInstr m f) s = .next (s.answer .invalidAddressConfig))
    ∧ (s.addr = none → legalFields m f → ∃ b, resolve m f = some b ∧
        exec (createInstr m f) s = .next { s with
          addr := some b
          rx := ⟨.idle, [], 0, 0, 0, .disarmed⟩
          tx := ⟨.idle, [], 0, 0, 0, 0, 0, .disarmed, .disarmed⟩
          fcRequest := false, fcSlot := none, txQueue := [], rxQueue := []
          results := s.results ++ [⟨s.caller, .ok, .nothing⟩] })

/-- R290 with the legality of R44: between ticks, in both lifecycle states, a legal `SET_PARAM` writes its one field and answers OK; an
illegal one changes no field and answers `ConfigValidation`. -/
def Obligations.SetParamAnswers : Prop :=
  ∀ (s : State) (v : ParamValue), s.phase = .idle →
    (∀ n : Nat, v = some (n : Int) → n ≤ 255 →
      exec (.setStmin v) s = .next (State.answer { s with params := { s.params with stmin := BitVec.ofNat 8 n } } .ok)
      ∧ exec (.setBlocksize v) s
          = .next (State.answer { s with params := { s.params with blocksize := BitVec.ofNat 8 n } } .ok)
      ∧ exec (.setTxPadding v) s
          = .next (State.answer { s with params := { s.params with txPadding := some (BitVec.ofNat 8 n) } } .ok))
    ∧ (v = none →
      exec (.setTxPadding v) s = .next (State.answer { s with params := { s.params with txPadding := none } } .ok))
    ∧ (v = some 0 →
      exec (.setSquashTiming v) s = .next (State.answer { s with params := { s.params with squashTiming := false } } .ok))
    ∧ (v = some 1 →
      exec (.setSquashTiming v) s = .next (State.answer { s with params := { s.params with squashTiming := true } } .ok))
    ∧ (∀ n : Nat, v = some (n : Int) → n ≤ s.cfg.paramMax →
      exec (.setRxFlowcontrolTimeout v) s
          = .next (State.answer { s with params := { s.params with rxFlowcontrolTimeout := n } } .ok)
      ∧ exec (.setRxConsecutiveFrameTimeout v) s
          = .next (State.answer { s with params := { s.params with rxConsecutiveFrameTimeout := n } } .ok)
      ∧ exec (.setMaxWaitFrames v) s
          = .next (State.answer { s with params := { s.params with maxWaitFrames := n } } .ok)
      ∧ exec (.setLlDataLength v) s
          = .next (State.answer { s with params := { s.params with llDataLength := n } } .ok))
    ∧ ((v = none ∨ ∃ z, v = some z ∧ (z < 0 ∨ 255 < z)) →
      exec (.setStmin v) s = .next (s.answer .configValidation)
      ∧ exec (.setBlocksize v) s = .next (s.answer .configValidation))
    ∧ ((∃ z, v = some z ∧ (z < 0 ∨ 255 < z)) → exec (.setTxPadding v) s = .next (s.answer .configValidation))
    ∧ ((v = none ∨ ∃ z, v = some z ∧ z ≠ 0 ∧ z ≠ 1) → exec (.setSquashTiming v) s = .next (s.answer .configValidation))
    ∧ ((v = none ∨ ∃ z, v = some z ∧ (z < 0 ∨ (s.cfg.paramMax : Int) < z)) →
      exec (.setRxFlowcontrolTimeout v) s = .next (s.answer .configValidation)
      ∧ exec (.setRxConsecutiveFrameTimeout v) s = .next (s.answer .configValidation)
      ∧ exec (.setMaxWaitFrames v) s = .next (s.answer .configValidation)
      ∧ exec (.setLlDataLength v) s = .next (s.answer .configValidation))

/-- R262: between ticks and without a session, every command but `CREATE` and `SET_PARAM` changes no state and returns
`IllegalCommand`. -/
def Obligations.UnconfiguredCommandsIllegal : Prop :=
  ∀ (s : State) (m : List Byte) (now : Nat), s.addr = none → s.phase = .idle →
    ∀ i ∈ [Instr.submitPhys m, .submitFunc m, .poll, .process now, .reset, .available, .transmitting, .idleSleep],
      exec i s = .next (s.answer .illegalCommand)

/-- R323 with U20 of 93_implementation_defined.md: while a tick runs, the commands that may not overlap it have no move: the
named refusal is the model's choice (log entry 8). -/
def Obligations.CommandsDuringTickRefused : Prop :=
  ∀ (s : State) (now : Nat) (v : ParamValue) (m : Mode) (f : AddrFields), s.phase ≠ .idle →
    ∀ i ∈ [Instr.process now, .reset, .transmitting, .idleSleep, .setStmin v, .setBlocksize v, .setSquashTiming v,
        .setRxFlowcontrolTimeout v, .setRxConsecutiveFrameTimeout v, .setTxPadding v, .setMaxWaitFrames v,
        .setLlDataLength v, createInstr m f],
      exec i s = .refused .commandDuringTick

/-! ## The tick -/

/-- R271 (its first part), R180 and R52: `PROCESS` with a session, between ticks, takes the snapshot and the time, aborts a reassembly
whose timer has expired, and opens the drain. That a tick is cut into steps there is the model's choice (log entry 6). -/
def Obligations.ProcessStartsTick : Prop :=
  ∀ (s : State) (a : Addr) (now : Nat), s.addr = some a → s.phase = .idle → s.now ≤ now →
    (s.rx.state = .waitCf ∧ s.rx.cfTimer.expired now s.params.rxConsecutiveFrameTimeout = true →
      exec (.process now) s = .next { s with
        now := now, snap := s.params, phase := .drain, driver := s.caller
        rx := ⟨.idle, [], 0, 0, 0, .disarmed⟩, fcRequest := false
        log := s.log ++ [.report .consecutiveFrameTimeout] })
    ∧ (¬ (s.rx.state = .waitCf ∧ s.rx.cfTimer.expired now s.params.rxConsecutiveFrameTimeout = true) →
      exec (.process now) s = .next { s with now := now, snap := s.params, phase := .drain, driver := s.caller })

/-- R272, U17: a decreasing `now` has no move: the named refusal is the model's choice (log entry 8). -/
def Obligations.DecreasingTimeRefused : Prop :=
  ∀ (s : State) (a : Addr) (now : Nat), s.addr = some a → s.phase = .idle → now < s.now →
    exec (.process now) s = .refused .timeDecreased

/-- R271: from every state of a session between ticks, `PROCESS` and the engine steps that follow it run the whole tick: the snapshot
and the timeout check, the drain, the transmit phase, the answer OK. The small steps are the model's choice (log entry 6). -/
def Obligations.ProcessRunsWholeTick : Prop :=
  ∀ (s : State) (a : Addr) (now : Nat), s.addr = some a → s.phase = .idle → s.turn = [] → s.now ≤ now →
    (∀ f ∈ s.rxPort, frameWithinDuty f = true) →
    ∃ t k, exec (.process now) s = .next t ∧ core.run k t = .next (processTick a now s) ∧ (processTick a now s).phase = .idle

/-- R354: every tick ends, within a number of steps given by the frames waiting and the work queued (R183, R221). -/
def Obligations.TickTerminates : Prop :=
  ∀ (s : State) (a : Addr), s.addr = some a → s.phase ≠ .idle → s.turn = [] →
    (∀ f ∈ s.rxPort, frameWithinDuty f = true) →
    ∃ t k, core.run k s = .next t ∧ t.phase = .idle ∧ k ≤ s.rxPort.length + txWork s + 3

/-- R221: every transmit micro-step that makes progress consumes work. -/
def Obligations.ProgressConsumesWork : Prop :=
  ∀ (a : Addr) (s t : State), txStep a s = (t, true) → txWork t < txWork s

/-- R273: with both sides Idle, nothing requested, nothing to receive and nothing to send, a tick writes no register and emits and
reports nothing: only the tick's own `now` and `snap`, and the answer OK. -/
def Obligations.IdleTickChangesNothing : Prop :=
  ∀ (s : State) (a : Addr) (now : Nat), s.Inv → s.addr = some a → s.phase = .idle → s.turn = [] → s.now ≤ now →
    s.rx.state = .idle → s.tx.state = .idle → s.rxPort = [] → s.txQueue = [] →
    ∃ t, exec (.process now) s = .next t ∧
      core.run 2 t = .next { s with
        now := now, snap := s.params, driver := s.caller, results := s.results ++ [⟨s.caller, .ok, .nothing⟩] }

/-! ## The receive side -/

/-- R188, R194 with R212: a Single Frame is delivered; while receiving it interrupts the reassembly first; a full `rx_queue` drops the
message with a report. -/
def Obligations.SingleFrameReceived : Prop :=
  ∀ (d : List Byte) (s : State),
    (s.rx.state = .idle → s.rxQueue.length < s.cfg.rxqDepth →
      exec (.sf d) s = .next { s with rxQueue := s.rxQueue ++ [d], log := s.log ++ [.deliver d] })
    ∧ (s.rx.state = .idle → s.cfg.rxqDepth ≤ s.rxQueue.length →
      exec (.sf d) s = .next { s with log := s.log ++ [.report (.rxQueueOverflow d.length)] })
    ∧ (s.rx.state = .waitCf → s.rxQueue.length < s.cfg.rxqDepth →
      exec (.sf d) s = .next { s with
        rx := ⟨.idle, [], 0, 0, 0, .disarmed⟩, fcRequest := false, rxQueue := s.rxQueue ++ [d]
        log := s.log ++ [.report .receptionInterruptedBySingleFrame, .deliver d] })
    ∧ (s.rx.state = .waitCf → s.cfg.rxqDepth ≤ s.rxQueue.length →
      exec (.sf d) s = .next { s with
        rx := ⟨.idle, [], 0, 0, 0, .disarmed⟩, fcRequest := false
        log := s.log ++ [.report .receptionInterruptedBySingleFrame, .report (.rxQueueOverflow d.length)] })

/-- R191, R192: a First Frame starts a reassembly and requests a Flow Control; while receiving it supersedes the one in progress. -/
def Obligations.FirstFrameReceived : Prop :=
  ∀ (len : FfLength) (d : List Byte) (s : State),
    (s.rx.state = .idle →
      exec (.ff len d) s = .next { s with rx := ⟨.waitCf, d, len, 0, 0, .armed s.now⟩, fcRequest := true })
    ∧ (s.rx.state = .waitCf →
      exec (.ff len d) s = .next { s with
        rx := ⟨.waitCf, d, len, 0, 0, .armed s.now⟩, fcRequest := true
        log := s.log ++ [.report .receptionInterruptedByNewFirstFrame] })

/-- R190, R197: a Consecutive Frame in `RX_IDLE` is reported and ignored; one with a wrong sequence number aborts the reassembly. -/
def Obligations.ConsecutiveFrameRejected : Prop :=
  ∀ (n : Nibble) (d : List Byte) (s : State),
    (s.rx.state = .idle →
      exec (.cf n d) s = .next { s with log := s.log ++ [.report (.unexpectedConsecutiveFrame n)] })
    ∧ (s.rx.state = .waitCf → ∀ e : Nibble, e.toNat = (s.rx.lastSeq.toNat + 1) % 16 → n ≠ e →
      exec (.cf n d) s = .next { s with
        rx := ⟨.idle, [], 0, 0, 0, .disarmed⟩, fcRequest := false
        log := s.log ++ [.report (.wrongSequenceNumber e n)] })

/-- R196, R198: the Consecutive Frame with the expected number appends what is missing, delivers a complete message, and otherwise
restarts the timer and counts the block. -/
def Obligations.ConsecutiveFrameAccepted : Prop :=
  ∀ (n : Nibble) (d buf : List Byte) (s : State), s.rx.state = .waitCf → n.toNat = (s.rx.lastSeq.toNat + 1) % 16 →
    buf = s.rx.buf ++ d.take (min (s.rx.len.toNat - s.rx.buf.length) d.length) →
    (s.rx.len.toNat ≤ buf.length → s.rxQueue.length < s.cfg.rxqDepth →
      exec (.cf n d) s = .next { s with
        rx := ⟨.idle, [], 0, 0, 0, .disarmed⟩, fcRequest := false
        rxQueue := s.rxQueue ++ [buf], log := s.log ++ [.deliver buf] })
    ∧ (s.rx.len.toNat ≤ buf.length → s.cfg.rxqDepth ≤ s.rxQueue.length →
      exec (.cf n d) s = .next { s with
        rx := ⟨.idle, [], 0, 0, 0, .disarmed⟩, fcRequest := false
        log := s.log ++ [.report (.rxQueueOverflow buf.length)] })
    ∧ (buf.length < s.rx.len.toNat → s.snap.blocksize = 0 →
      exec (.cf n d) s = .next { s with rx := { s.rx with lastSeq := n, cfTimer := .armed s.now, buf := buf } })
    ∧ (buf.length < s.rx.len.toNat → s.snap.blocksize ≠ 0 → s.rx.blockCnt + 1 < s.snap.blocksize.toNat →
      exec (.cf n d) s = .next { s with
        rx := { s.rx with lastSeq := n, cfTimer := .armed s.now, buf := buf, blockCnt := s.rx.blockCnt + 1 } })
    ∧ (buf.length < s.rx.len.toNat → s.snap.blocksize ≠ 0 → s.snap.blocksize.toNat ≤ s.rx.blockCnt + 1 →
      exec (.cf n d) s = .next { s with
        fcRequest := true
        rx := { s.rx with lastSeq := n, cfTimer := .armed s.now, buf := buf, blockCnt := 0 } })

/-- R189: a Flow Control of any status fills the slot, overwriting an earlier one, and while receiving restarts the timer. -/
def Obligations.FlowControlReceived : Prop :=
  ∀ (bs : Byte) (st : StminCode) (s : State), ∀ p ∈
      [(Instr.fcCts bs st, FlowStatus.cts), (.fcWait bs st, .wait), (.fcOvflw bs st, .ovflw)],
    (s.rx.state = .idle → exec p.1 s = .next { s with fcSlot := some ⟨p.2, bs, st.raw, st.toMs⟩ })
    ∧ (s.rx.state = .waitCf →
      exec p.1 s = .next { s with
        fcSlot := some ⟨p.2, bs, st.raw, st.toMs⟩, rx := { s.rx with cfTimer := .armed s.now } })

/-- R187, R132: in the drain, a frame that fails the filter changes nothing but the port; one that passes it and does not decode is
reported and aborts a reassembly in progress. -/
def Obligations.FramesDroppedOrMalformed : Prop :=
  ∀ (s : State) (a : Addr) (f : Frame) (rest : List Frame), s.Receives a f rest →
    (isForMe a f = false → step s = .next { s with rxPort := rest })
    ∧ (isForMe a f = true → ∀ r, decodePdu f.data a.pfx.length s.snap.llDataLength = .error r →
        (s.rx.state = .idle →
          step s = .next { s with rxPort := rest, log := s.log ++ [.report (.malformedFrame f.data)] })
        ∧ (s.rx.state = .waitCf →
          step s = .next { s with
            rxPort := rest, rx := ⟨.idle, [], 0, 0, 0, .disarmed⟩, fcRequest := false
            log := s.log ++ [.report (.malformedFrame f.data)] }))

/-- R202, R184: the frame of the received PDUs. No transmit register, queue to send, parameter, address, tick register or input
changes, and no frame is emitted; `rx_queue` only gains messages. -/
def Obligations.ReceivedPduFrame : Prop :=
  ∀ (i : Instr) (s t : State), i.isPdu = true → exec i s = .next t →
    t = { s with rx := t.rx, fcRequest := t.fcRequest, fcSlot := t.fcSlot, rxQueue := t.rxQueue, log := t.log }
    ∧ framesOf t.log = framesOf s.log ∧ (t.rxQueue = s.rxQueue ∨ ∃ m, t.rxQueue = s.rxQueue ++ [m])

/-- R213, R239: the PDUs of a segmented message, received in order by an Idle receiver with room in `rx_queue`, deliver exactly that
message, once, and leave the receiver Idle. -/
def Obligations.SegmentsReassemble : Prop :=
  ∀ (ll p : Nat) (m : List Byte) (s : State), m.length ≤ 4095 → frameKind ll p m.length = .multi →
    s.rx.state = .idle → s.rxQueue.length < s.cfg.rxqDepth →
    ∃ t, execAll (segments ll p m) s = .next t ∧
      t.rxQueue = s.rxQueue ++ [m] ∧ deliveriesOf t.log = deliveriesOf s.log ++ [m] ∧
      errorsOf t.log = errorsOf s.log ∧ t.rx = RxRegs.reset ∧ t.fcRequest = false ∧ t.tx = s.tx

/-! ## The transmit side -/

/-- R224: a pending own Flow Control is sent first, whatever the transmitter's state, and changes no transmit register. -/
def Obligations.OwnFlowControlSentFirst : Prop :=
  ∀ (s : State) (a : Addr), s.InTransmit a → s.fcRequest = true →
    step s = .next { s with
      fcRequest := false
      log := s.log ++ [.emit ⟨a.txPhys, a.is29,
        pad (a.pfx ++ [0x30, s.snap.blocksize, s.snap.stmin]) s.snap.llDataLength s.snap.txPadding⟩] }

/-- R226: a Flow Control of any status while the transmitter is Idle is reported and ignored. -/
def Obligations.UnexpectedFlowControlIgnored : Prop :=
  ∀ (s : State) (fc : FlowControl), s.fcSlot = some fc → s.tx.state = .idle →
    txConsumeSlot s = { s with fcSlot := none, log := s.log ++ [.report (.unexpectedFlowControl fc.status)] }

/-- R227: a Wait while a transmission is in progress: unsupported, over the limit, or accepted (even when the timer has expired). -/
def Obligations.WaitHandled : Prop :=
  ∀ (s : State) (fc : FlowControl), s.fcSlot = some fc → fc.status = .wait → s.tx.state ≠ .idle →
    (s.snap.maxWaitFrames = 0 →
      txConsumeSlot s = { s with
        fcSlot := none, tx := TxRegs.reset, log := s.log ++ [.report .unsupportedWaitFrame] })
    ∧ (s.snap.maxWaitFrames ≠ 0 → s.snap.maxWaitFrames ≤ s.tx.waitCnt →
      txConsumeSlot s = { s with
        fcSlot := none, tx := TxRegs.reset, log := s.log ++ [.report .maximumWaitFramesReached] })
    ∧ (s.snap.maxWaitFrames ≠ 0 → s.tx.waitCnt < s.snap.maxWaitFrames →
      txConsumeSlot s = { s with
        fcSlot := none, tx := { s.tx with waitCnt := s.tx.waitCnt + 1, state := .waitFc, fcTimer := .armed s.now } })

/-- R228: a ContinueToSend while a transmission is in progress: dropped when the flow-control timer has expired; else adopted, with
the block count and the separation timer restarted only from `TX_WAIT_FC`. -/
def Obligations.ContinueToSendHandled : Prop :=
  ∀ (s : State) (fc : FlowControl), s.fcSlot = some fc → fc.status = .cts → s.tx.state ≠ .idle →
    (s.tx.fcTimer.expired s.now s.snap.rxFlowcontrolTimeout = true → txConsumeSlot s = { s with fcSlot := none })
    ∧ (s.tx.fcTimer.expired s.now s.snap.rxFlowcontrolTimeout = false → s.tx.state = .waitFc →
      txConsumeSlot s = { s with
        fcSlot := none
        tx := { s.tx with
          waitCnt := 0, fcTimer := .disarmed, peerBs := fc.bs, peerStminMs := fc.stminMs, blockCnt := 0
          stminTimer := .armed s.now, state := .txCf } })
    ∧ (s.tx.fcTimer.expired s.now s.snap.rxFlowcontrolTimeout = false → s.tx.state = .txCf →
      txConsumeSlot s = { s with
        fcSlot := none
        tx := { s.tx with waitCnt := 0, fcTimer := .disarmed, peerBs := fc.bs, peerStminMs := fc.stminMs, state := .txCf } })

/-- R236: an Overflow while a transmission is in progress aborts it. -/
def Obligations.OverflowHandled : Prop :=
  ∀ (s : State) (fc : FlowControl), s.fcSlot = some fc → fc.status = .ovflw → s.tx.state ≠ .idle →
    txConsumeSlot s = { s with fcSlot := none, tx := TxRegs.reset, log := s.log ++ [.report .flowControlOverflow] }

/-- R229, R309: in a micro-step that sends no own Flow Control, with nothing queued behind it, an expired flow-control timer aborts the
transmission, a late ContinueToSend is dropped without a report, a late Wait within its limit saves it (unless the timeout is 0, which
expires again at once), and a late Overflow, or a Wait over its limit, reports only itself. -/
def Obligations.FlowControlTimeoutOrder : Prop :=
  ∀ (s : State) (a : Addr), s.InTransmit a → s.fcRequest = false → s.tx.state = .waitFc → s.txQueue = [] →
    s.tx.fcTimer.expired s.now s.snap.rxFlowcontrolTimeout = true →
    (s.fcSlot = none ∨ (∃ fc, s.fcSlot = some fc ∧ fc.status = .cts) →
      step s = .next (endTick { s with
        fcSlot := none, tx := TxRegs.reset, log := s.log ++ [.report .flowControlTimeout] }))
    ∧ (∀ fc, s.fcSlot = some fc → fc.status = .wait → s.tx.waitCnt < s.snap.maxWaitFrames →
      (s.snap.rxFlowcontrolTimeout ≠ 0 →
        step s = .next (endTick { s with
          fcSlot := none, tx := { s.tx with waitCnt := s.tx.waitCnt + 1, state := .waitFc, fcTimer := .armed s.now } }))
      ∧ (s.snap.rxFlowcontrolTimeout = 0 →
        step s = .next (endTick { s with
          fcSlot := none, tx := TxRegs.reset, log := s.log ++ [.report .flowControlTimeout] })))
    ∧ (∀ fc, s.fcSlot = some fc → fc.status = .wait → s.snap.maxWaitFrames ≤ s.tx.waitCnt →
      step s = .next (endTick { s with
        fcSlot := none, tx := TxRegs.reset
        log := s.log ++ [.report
          (if s.snap.maxWaitFrames = 0 then .unsupportedWaitFrame else .maximumWaitFramesReached)] }))
    ∧ (∀ fc, s.fcSlot = some fc → fc.status = .ovflw →
      step s = .next (endTick { s with
        fcSlot := none, tx := TxRegs.reset, log := s.log ++ [.report .flowControlOverflow] }))

/-- R230, R231, R232: the next queued message of an Idle transmitter: a Single Frame, a First Frame, or a report. -/
def Obligations.QueuedMessageStarted : Prop :=
  ∀ (s : State) (a : Addr) (msg : TxMessage) (rest : List TxMessage), s.InTransmit a → s.NoHandshake →
    s.tx.state = .idle → s.txQueue = msg :: rest → msg.payload.length ≤ 4095 →
    (frameKind s.snap.llDataLength a.pfx.length msg.payload.length = .single →
      step s = .next { s with
        txQueue := rest
        log := s.log ++ [.emit ⟨match msg.target with | .physical => a.txPhys | .functional => a.txFunc, a.is29,
          pad (a.pfx ++ BitVec.ofNat 8 msg.payload.length :: msg.payload) s.snap.llDataLength s.snap.txPadding⟩] })
    ∧ (frameKind s.snap.llDataLength a.pfx.length msg.payload.length = .multi → msg.target = .physical →
      ∃ cap : Nat, (cap : Int) = (s.snap.llDataLength : Int) - 2 - a.pfx.length ∧
        step s = .next { s with
          txQueue := rest
          tx := { s.tx with
            buf := msg.payload.drop cap, seq := 1, blockCnt := 0, waitCnt := 0, state := .waitFc, fcTimer := .armed s.now }
          log := s.log ++ [.emit ⟨a.txPhys, a.is29,
            pad (a.pfx ++ BitVec.ofNat 8 (0x10 ||| msg.payload.length >>> 8) :: BitVec.ofNat 8 msg.payload.length
              :: msg.payload.take cap) s.snap.llDataLength s.snap.txPadding⟩] })
    ∧ ((frameKind s.snap.llDataLength a.pfx.length msg.payload.length = .multi ∧ msg.target = .functional)
        ∨ frameKind s.snap.llDataLength a.pfx.length msg.payload.length = .untransmittable →
      step s = .next { s with
        txQueue := rest, log := s.log ++ [.report (.untransmittableMessage msg.payload.length)] })

/-- R233, R234, R235: a due Consecutive Frame carries the next number and chunk; it ends the message, ends the block, or leaves the
transmitter sending; when no data fits, the rest is reported and discarded. One that is not due waits, and the tick ends. -/
def Obligations.ConsecutiveFrameSent : Prop :=
  ∀ (s : State) (a : Addr), s.InTransmit a → s.NoHandshake → s.tx.state = .txCf →
    let due := s.snap.squashTiming = true ∨ s.tx.stminTimer.expired s.now s.tx.peerStminMs = true
    (¬ due → step s = .next (endTick s))
    ∧ (due → (s.snap.llDataLength : Int) - 1 - a.pfx.length < 1 →
      step s = .next { s with
        tx := TxRegs.reset, log := s.log ++ [.report (.untransmittableMessage s.tx.buf.length)] })
    ∧ ∀ cap : Nat, due → (cap : Int) = (s.snap.llDataLength : Int) - 1 - a.pfx.length → 1 ≤ cap →
      let sent := s.log ++ [.emit ⟨a.txPhys, a.is29,
        pad (a.pfx ++ (0x20 ||| s.tx.seq.setWidth 8) :: s.tx.buf.take cap) s.snap.llDataLength s.snap.txPadding⟩]
      (s.tx.buf.length ≤ cap → step s = .next { s with tx := TxRegs.reset, log := sent })
      ∧ (cap < s.tx.buf.length → s.tx.peerBs ≠ 0 → s.tx.peerBs.toNat ≤ s.tx.blockCnt + 1 →
        step s = .next { s with
          tx := { s.tx with
            buf := s.tx.buf.drop cap, seq := s.tx.seq + 1, blockCnt := s.tx.blockCnt + 1
            stminTimer := .armed s.now, state := .waitFc, fcTimer := .armed s.now }
          log := sent })
      ∧ (cap < s.tx.buf.length → (s.tx.peerBs = 0 ∨ s.tx.blockCnt + 1 < s.tx.peerBs.toNat) →
        step s = .next { s with
          tx := { s.tx with
            buf := s.tx.buf.drop cap, seq := s.tx.seq + 1, blockCnt := s.tx.blockCnt + 1, stminTimer := .armed s.now }
          log := sent })

/-- R238: the frame of the transmit micro-steps. No receive register, received message, parameter, address, tick register or input
changes; and only a message taken from the front leaves `tx_queue` (R74). -/
def Obligations.TransmitStepFrame : Prop :=
  ∀ (a : Addr) (s t : State) (b : Bool), txStep a s = (t, b) →
    t = { s with tx := t.tx, fcRequest := t.fcRequest, fcSlot := t.fcSlot, txQueue := t.txQueue, log := t.log }
    ∧ (t.txQueue = s.txQueue ∨ ∃ m, s.txQueue = m :: t.txQueue) ∧ deliveriesOf t.log = deliveriesOf s.log

/-- R225, R224: the handoff between the two sides lives for one tick: the step that ends a tick leaves no Flow Control in the slot and no
request. -/
def Obligations.HandoffLivesOneTick : Prop :=
  ∀ s t : State, step s = .next t → s.phase ≠ .idle → t.phase = .idle → t.fcSlot = none ∧ t.fcRequest = false

/-- R239, R233: with block size 0 and separation time 0, one transmit phase sends all the Consecutive Frames of the message: as many
as the capacity gives, numbered modulo 16, and then the transmitter is Idle and the tick ends. -/
def Obligations.BurstSendsAllConsecutiveFrames : Prop :=
  ∀ (s : State) (a : Addr) (cap n : Nat), s.InTransmit a → s.NoHandshake → s.tx.state = .txCf → s.txQueue = [] →
    s.tx.fcTimer = .disarmed → s.tx.peerBs = 0 → s.tx.peerStminMs = 0 → s.tx.stminTimer.isArmed = true →
    (cap : Int) = (s.snap.llDataLength : Int) - 1 - a.pfx.length → 1 ≤ cap →
    s.tx.buf ≠ [] → (n - 1) * cap < s.tx.buf.length → s.tx.buf.length ≤ n * cap →
    core.run (n + 1) s = .next (endTick { s with
      tx := TxRegs.reset, log := s.log ++ (cfFrames a s.snap cap n s.tx.seq s.tx.buf).map .emit })

/-! ## Every step -/

/-- The instruction in the command word a thread issues is the one the step runs, with the word consumed (R100, R108), between ticks and
while a tick runs that another thread is inside of (R323, R328). The lists of lines and of turns are the model's choice (log entries 9,
10). -/
def Obligations.StepRunsHostCommand : Prop :=
  ∀ (s s' : State) (who : Agent) (w : List Tok) (i : Instr), s.Issues who w s' → decodeHost w = .ok i → step s = exec i s'

/-- The PDU of a received frame that passes the filter is the instruction the step runs, with the frame consumed (R183, R185). One step a
frame is the model's choice (log entry 6). -/
def Obligations.StepRunsReceivedPdu : Prop :=
  ∀ (s : State) (a : Addr) (f : Frame) (rest : List Frame) (i : Instr), s.EngineMoves → s.phase = .drain → s.addr = some a →
    s.rxPort = f :: rest → frameWithinDuty f = true → isForMe a f = true →
    decodePdu f.data a.pfx.length s.snap.llDataLength = .ok i →
    step s = exec i { s with turn := s.turn.tail, rxPort := rest }

/-- R323: a `SUBMIT`, `POLL` or `AVAILABLE` of a thread that is not inside the tick runs at any point of it and writes, beside its
answer, only its own queue: `SUBMIT` at most adds its message to `tx_queue`, `POLL` at most takes the oldest message of `rx_queue`,
`AVAILABLE` writes neither. The list of turns is the model's choice (log entry 10). -/
def Obligations.ConcurrentCommandsTouchOnlyQueues : Prop :=
  ∀ (s s' : State) (who : Agent) (w : List Tok) (i : Instr), s.Issues who w s' → decodeHost w = .ok i →
    (∀ m target, (i = .submitPhys m ∧ target = Target.physical) ∨ (i = .submitFunc m ∧ target = Target.functional) →
      ∃ r q, step s = .next { s' with txQueue := q, results := s.results ++ [r] }
        ∧ (q = s.txQueue ∨ q = s.txQueue ++ [⟨m, target⟩]))
    ∧ (i = .poll →
      ∃ r q, step s = .next { s' with rxQueue := q, results := s.results ++ [r] } ∧ (q = s.rxQueue ∨ ∃ m, s.rxQueue = m :: q))
    ∧ (i = .available → ∃ r, step s = .next { s' with results := s.results ++ [r] })

/-- R340: the power-on values, for every choice of the OPEN parameters. -/
def Obligations.PowerOnValues : Prop :=
  ∀ c : Config, let s := State.powerOn c
    s.configured = false ∧ s.addr = none
    ∧ s.rx = ⟨.idle, [], 0, 0, 0, .disarmed⟩ ∧ s.tx = ⟨.idle, [], 0, 0, 0, 0, 0, .disarmed, .disarmed⟩
    ∧ s.fcRequest = false ∧ s.fcSlot = none ∧ s.txQueue = [] ∧ s.rxQueue = []
    ∧ s.params = {
        stmin := c.resetStmin, blocksize := c.resetBlocksize, squashTiming := c.resetSquashTiming
        rxFlowcontrolTimeout := c.resetFcTimeout, rxConsecutiveFrameTimeout := c.resetCfTimeout
        txPadding := none, maxWaitFrames := c.resetMaxWait, llDataLength := 8 }
    ∧ State.reset = State.powerOn Config.chosen

/-- The invariant of R55 holds at power-on, for every choice of the OPEN parameters. -/
def Obligations.PowerOnMeetsInvariant : Prop := ∀ c : Config, (State.powerOn c).Inv

/-- R55: every step keeps the invariant. -/
def Obligations.StepKeepsInvariant : Prop := ∀ s t : State, s.Inv → step s = .next t → t.Inv

/-- R21, R20: no step changes or removes a session's address, and none touches the OPEN parameters. -/
def Obligations.AddressImmutable : Prop :=
  ∀ s t : State, step s = .next t → t.cfg = s.cfg ∧ ∀ a, s.addr = some a → t.addr = some a

/-- R43, R52: a step that changes `params` runs a `SET_PARAM` command, between ticks; while a tick runs, its snapshot and time stay. -/
def Obligations.OnlySetParamWritesParams : Prop :=
  ∀ s t : State, step s = .next t →
    (t.params ≠ s.params → s.phase = .idle ∧ ∃ s' v,
      fetch s = .run (.setStmin v) s' ∨ fetch s = .run (.setBlocksize v) s' ∨ fetch s = .run (.setSquashTiming v) s'
      ∨ fetch s = .run (.setRxFlowcontrolTimeout v) s' ∨ fetch s = .run (.setRxConsecutiveFrameTimeout v) s'
      ∨ fetch s = .run (.setTxPadding v) s' ∨ fetch s = .run (.setMaxWaitFrames v) s' ∨ fetch s = .run (.setLlDataLength v) s')
    ∧ (s.phase ≠ .idle → t.snap = s.snap ∧ t.now = s.now ∧ t.params = s.params)

/-- R54, R12: the log is only ever appended to, and frames leave only in the transmit phase (R184). -/
def Obligations.StepExtendsLog : Prop :=
  ∀ s t : State, step s = .next t →
    (∃ es, t.log = s.log ++ es) ∧ (s.phase ≠ .transmit → framesOf t.log = framesOf s.log)

/-! ## The whole micro-step -/

/-- R223, R225, R229, R306: a micro-step that sends no own Flow Control takes the slot, then checks the timeout on what that left, then
runs the state machine on the result, all in one step: the step is the step of the state after the handshake, which needs none itself.
There the state machine's statements apply, and one that waits for a Flow Control, or is Idle with nothing queued, ends the tick. -/
def Obligations.HandshakeThenStateMachine : Prop :=
  ∀ (s : State) (a : Addr), s.InTransmit a →
    (s.fcRequest = false → ∀ t, t = txConsumeSlot s →
      (s.fcSlot = none → t = s)
      ∧ (t.tx.fcTimer.expired t.now t.snap.rxFlowcontrolTimeout = false → step s = step t ∧ t.InTransmit a ∧ t.NoHandshake)
      ∧ (t.tx.fcTimer.expired t.now t.snap.rxFlowcontrolTimeout = true →
        ∀ u, u = { t with tx := TxRegs.reset, log := t.log ++ [.report .flowControlTimeout] } →
          step s = step u ∧ u.InTransmit a ∧ u.NoHandshake))
    ∧ (s.NoHandshake → (s.tx.state = .waitFc ∨ (s.tx.state = .idle ∧ s.txQueue = [])) → step s = .next (endTick s))

/-- R228 with R233 to R235 (95_test_vectors.md W2): a ContinueToSend in time, while waiting for it: with separation time 0, or squash
timing, the next Consecutive Frame goes in the same micro-step; otherwise the first one waits, and the tick ends. -/
def Obligations.ContinueToSendSendsAtOnce : Prop :=
  ∀ (s : State) (a : Addr) (fc : FlowControl) (cap : Nat), s.InTransmit a → s.fcRequest = false → s.fcSlot = some fc →
    fc.status = .cts → s.tx.state = .waitFc → s.tx.fcTimer.expired s.now s.snap.rxFlowcontrolTimeout = false →
    (cap : Int) = (s.snap.llDataLength : Int) - 1 - a.pfx.length → 1 ≤ cap →
    let adopted : TxRegs := { s.tx with
      waitCnt := 0, fcTimer := .disarmed, peerBs := fc.bs, peerStminMs := fc.stminMs, blockCnt := 0, stminTimer := .armed s.now
      state := .txCf }
    let sent := s.log ++ [.emit ⟨a.txPhys, a.is29,
      pad (a.pfx ++ (0x20 ||| s.tx.seq.setWidth 8) :: s.tx.buf.take cap) s.snap.llDataLength s.snap.txPadding⟩]
    (s.snap.squashTiming = false → 1 ≤ fc.stminMs → step s = .next (endTick { s with fcSlot := none, tx := adopted }))
    ∧ (s.snap.squashTiming = true ∨ fc.stminMs = 0 →
      (s.tx.buf.length ≤ cap → step s = .next { s with fcSlot := none, tx := TxRegs.reset, log := sent })
      ∧ (cap < s.tx.buf.length → fc.bs = 1 →
        step s = .next { s with
          fcSlot := none, log := sent
          tx := { adopted with
            buf := s.tx.buf.drop cap, seq := s.tx.seq + 1, blockCnt := 1, state := .waitFc, fcTimer := .armed s.now } })
      ∧ (cap < s.tx.buf.length → fc.bs ≠ 1 →
        step s = .next { s with
          fcSlot := none, log := sent
          tx := { adopted with buf := s.tx.buf.drop cap, seq := s.tx.seq + 1, blockCnt := 1 } }))

/-- R223 (92_eei_decisions.md D42, 95_test_vectors.md TX-17): after an abort, or an unexpected Flow Control, the next queued message starts
in the same micro-step: the step is the step of an Idle transmitter with the report behind it, and a message of a single frame follows the
report in the log. -/
def Obligations.NextMessageStartsAtOnce : Prop :=
  ∀ (s : State) (a : Addr) (msg : TxMessage) (rest : List TxMessage) (e : ErrorEvent), s.InTransmit a → s.fcRequest = false →
    s.txQueue = msg :: rest →
    ((s.tx = TxRegs.reset ∧ ∃ fc, s.fcSlot = some fc ∧ e = .unexpectedFlowControl fc.status)
      ∨ (s.tx.state ≠ .idle ∧ ∃ fc, s.fcSlot = some fc ∧
          ((fc.status = .ovflw ∧ e = .flowControlOverflow)
            ∨ (fc.status = .wait ∧ s.snap.maxWaitFrames ≤ s.tx.waitCnt
              ∧ e = if s.snap.maxWaitFrames = 0 then .unsupportedWaitFrame else .maximumWaitFramesReached)))
      ∨ (s.tx.state ≠ .idle ∧ s.tx.fcTimer.expired s.now s.snap.rxFlowcontrolTimeout = true ∧ e = .flowControlTimeout
          ∧ (s.fcSlot = none ∨ ∃ fc, s.fcSlot = some fc ∧ fc.status = .cts))) →
    (∀ u, u = { s with fcSlot := none, tx := TxRegs.reset, log := s.log ++ [.report e] } →
      step s = step u ∧ u.InTransmit a ∧ u.NoHandshake)
    ∧ (frameKind s.snap.llDataLength a.pfx.length msg.payload.length = .single → msg.payload.length ≤ 4095 →
      step s = .next { s with
        fcSlot := none, tx := TxRegs.reset, txQueue := rest
        log := s.log ++ [.report e, .emit ⟨match msg.target with | .physical => a.txPhys | .functional => a.txFunc, a.is29,
          pad (a.pfx ++ BitVec.ofNat 8 msg.payload.length :: msg.payload) s.snap.llDataLength s.snap.txPadding⟩] })
end

