-- ==== Sys2Proof/Laws/Encoding.lean ====
section
/-! SUPPORT. Laws/Encoding.lean: the bit fields in numbers, and each operand reader against its writer. -/

namespace Sys2Proof

@[simp] theorem hiNibble_toNat (b : Byte) : (hiNibble b).toNat = b.toNat / 16 := by
  have h : b.toNat < 256 := b.isLt
  simp [hiNibble, BitVec.extractLsb'_toNat, Nat.shiftRight_eq_div_pow]
  omega

@[simp] theorem loNibble_toNat (b : Byte) : (loNibble b).toNat = b.toNat % 16 := by
  simp [loNibble, BitVec.extractLsb'_toNat]

@[simp] theorem mkByte_toNat (hi lo : Nibble) : (mkByte hi lo).toNat = hi.toNat * 16 + lo.toNat := by
  have h : lo.toNat < 2 ^ 4 := lo.isLt
  rw [mkByte, BitVec.toNat_append, ← Nat.shiftLeft_add_eq_or_of_lt h, Nat.shiftLeft_eq]

@[simp] theorem hiNibble_mkByte (hi lo : Nibble) : hiNibble (mkByte hi lo) = hi := by
  apply BitVec.eq_of_toNat_eq
  have h := lo.isLt
  simp
  omega

@[simp] theorem loNibble_mkByte (hi lo : Nibble) : loNibble (mkByte hi lo) = lo := by
  apply BitVec.eq_of_toNat_eq
  have h := lo.isLt
  simp
  omega

@[simp] theorem ffLength_toNat (b0 b1 : Byte) : (ffLength b0 b1).toNat = b0.toNat % 16 * 256 + b1.toNat := by
  have h : b1.toNat < 2 ^ 8 := b1.isLt
  rw [ffLength, BitVec.toNat_append, ← Nat.shiftLeft_add_eq_or_of_lt h, Nat.shiftLeft_eq, loNibble_toNat]

@[simp] theorem ffLengthHi_toNat (len : FfLength) : (ffLengthHi len).toNat = len.toNat / 256 := by
  have h := len.isLt
  simp [ffLengthHi, BitVec.extractLsb'_toNat, Nat.shiftRight_eq_div_pow]
  omega

@[simp] theorem ffLengthLo_toNat (len : FfLength) : (ffLengthLo len).toNat = len.toNat % 256 := by
  simp [ffLengthLo, BitVec.extractLsb'_toNat]

/-- The two PCI bytes of a First Frame give back its length (R83, R89). -/
theorem ffLength_ofParts (len : FfLength) : ffLength (mkByte 1 (ffLengthHi len)) (ffLengthLo len) = len := by
  apply BitVec.eq_of_toNat_eq
  have h := len.isLt
  simp
  omega

/-- Every legal STmin code is read back from its byte (R90). -/
theorem stminDecode_raw (c : StminCode) : stminDecode c.raw = some c := by
  cases c with
  | ms v =>
    have h := v.isLt
    have h1 : (v.setWidth 8).toNat = v.toNat := by simp; omega
    simp only [StminCode.raw, stminDecode, h1]
    rw [if_pos (by omega)]
    congr 2
    apply BitVec.eq_of_toNat_eq
    simp
  | hundredUs k => revert k; decide

/-- A byte that reads as a code is that code's byte (R90). -/
theorem raw_of_stminDecode {v : Byte} {c : StminCode} (h : stminDecode v = some c) : c.raw = v := by
  have hv : v.toNat < 256 := v.isLt
  unfold stminDecode at h
  split at h
  · cases h
    apply BitVec.eq_of_toNat_eq
    simp [StminCode.raw]
    omega
  · split at h
    · cases h
      apply BitVec.eq_of_toNat_eq
      simp only [StminCode.raw, BitVec.toNat_ofNat, Fin.ofNat]
      omega
    · cases h

/-- The reserved flow statuses (R86). -/
theorem flowStatusOf_none (b : Byte) : flowStatusOf (loNibble b) = none ↔ 3 ≤ b.toNat % 16 := by
  unfold flowStatusOf
  rw [loNibble_toNat]
  split <;> simp_all
  omega

/-- The reserved STmin codes (R90). -/
theorem stminDecode_none (b : Byte) :
    stminDecode b = none ↔ (0x80 ≤ b.toNat ∧ b.toNat ≤ 0xF0) ∨ 0xFA ≤ b.toNat := by
  have := b.isLt
  unfold stminDecode
  split
  · simp; omega
  · split
    · exact iff_of_false (Option.some_ne_none _) (by omega)
    · exact iff_of_true rfl (by omega)

/-- The milliseconds of a code never exceed 127 (R37, R156). -/
theorem StminCode.toMs_le (c : StminCode) : c.toMs ≤ 127 := by
  cases c with
  | ms v => have := v.isLt; simp only [StminCode.toMs]; omega
  | hundredUs k => simp [StminCode.toMs, Config.stminSubmsMs]

@[simp] theorem flowStatusOf_nibble (s : FlowStatus) : flowStatusOf s.nibble = some s := by cases s <;> rfl

@[simp] theorem bytesOf_map (m : List Byte) : bytesOf (m.map .byte) = some m := by
  induction m with
  | nil => rfl
  | cons b m ih => simp [bytesOf, ih]

/-- A payload of at most 65535 bytes is read back (R102). -/
theorem payloadOf_payloadToks {m : List Byte} (h : m.length < 65536) : payloadOf (payloadToks m) = some m := by
  have : nat16 (BitVec.ofNat 8 (m.length / 256)) (BitVec.ofNat 8 m.length) = m.length := by
    simp [nat16]; omega
  simp [payloadToks, payloadOf, this]

@[simp] theorem valueOf_valueTok (v : ParamValue) : valueOf [valueTok v] = some v := by cases v <;> rfl

@[simp] theorem fieldOf_fieldTok (v : Option Nat) : fieldOf (fieldTok v) = some v := by cases v <;> rfl

@[simp] theorem addrFieldsOf_addrToks (f : AddrFields) : addrFieldsOf (addrToks f) = some f := by
  simp [addrFieldsOf, addrToks]

/-- A frame that starts with the prefix is read from the byte after it (R80, R150). -/
theorem decodePdu_append (pre : List Byte) (b0 : Byte) (body : List Byte) (maxLen : Nat) :
    decodePdu (pre ++ b0 :: body) pre.length maxLen =
      match (hiNibble b0).toNat with
      | 0 => decodeSf pre.length maxLen b0 body
      | 1 => decodeFf b0 body
      | 2 => .ok (.cf (loNibble b0) body)
      | 3 => decodeFc b0 body
      | _ => .error (.malformed .reservedType) := by
  simp only [decodePdu, List.drop_left] <;> rfl

/-- The only rejections of a Single Frame, and what it decodes to otherwise (R152). -/
theorem decodeSf_ok {p maxLen : Nat} {b0 : Byte} {body : List Byte} {i : Instr} (h : decodeSf p maxLen b0 body = .ok i) :
    i = .sf (body.take (b0.toNat % 16)) ∧ 1 ≤ b0.toNat % 16 ∧ b0.toNat % 16 ≤ body.length
      ∧ ((b0.toNat % 16 : Nat) : Int) ≤ (maxLen : Int) - 1 - p := by
  simp only [decodeSf, loNibble_toNat] at h
  split at h
  · cases h
  · split at h
    · cases h
    · split at h
      · cases h
      · cases h
        refine ⟨rfl, ?_, ?_, ?_⟩ <;> omega

/-- A First Frame decodes to a chunk within its declared length (R153). -/
theorem decodeFf_ok {b0 : Byte} {body : List Byte} {i : Instr} (h : decodeFf b0 body = .ok i) :
    ∃ b1 rest, body = b1 :: rest ∧ i = .ff (ffLength b0 b1) (rest.take (ffLength b0 b1).toNat) := by
  cases body with
  | nil => cases h
  | cons b1 rest => cases h; exact ⟨b1, rest, rfl, rfl⟩

/-- A Flow Control decodes to one of the three instructions with the status of its nibble (R155). -/
theorem decodeFc_ok {b0 : Byte} {body : List Byte} {i : Instr} (h : decodeFc b0 body = .ok i) :
    ∃ bs raw tail status st, body = bs :: raw :: tail ∧ flowStatusOf (loNibble b0) = some status ∧
      stminDecode raw = some st ∧ i = fcInstr status bs st := by
  unfold decodeFc at h
  split at h
  · split at h
    · cases h
    · split at h
      · cases h
      · cases h; exact ⟨_, _, _, _, _, rfl, ‹_›, ‹_›, rfl⟩
  · cases h

/-- What a decoded PDU is, in every case (R150). -/
theorem decodePdu_ok {data : List Byte} {p maxLen : Nat} {i : Instr} (h : decodePdu data p maxLen = .ok i) :
    ∃ b0 body, data.drop p = b0 :: body ∧
      ((∃ d, i = .sf d ∧ 1 ≤ d.length ∧ d.length ≤ 15)
      ∨ (∃ len d, i = .ff len d ∧ d.length ≤ len.toNat ∧ d.length + 1 ≤ body.length)
      ∨ (∃ sn, i = .cf sn body)
      ∨ ∃ status bs st, i = fcInstr status bs st) := by
  unfold decodePdu at h
  cases hd : data.drop p with
  | nil => simp [hd] at h
  | cons b0 body =>
    refine ⟨b0, body, rfl, ?_⟩
    simp only [hd] at h
    split at h
    · obtain ⟨rfl, h1, h2, -⟩ := decodeSf_ok h
      exact .inl ⟨_, rfl, by simp; omega, by simp; omega⟩
    · obtain ⟨b1, rest, rfl, rfl⟩ := decodeFf_ok h
      exact .inr (.inl ⟨_, _, rfl, by simp, by simp⟩)
    · cases h; exact .inr (.inr (.inl ⟨_, rfl⟩))
    · obtain ⟨bs, raw, tail, status, st, -, -, -, rfl⟩ := decodeFc_ok h
      exact .inr (.inr (.inr ⟨_, _, _, rfl⟩))
    · cases h

end Sys2Proof
end

