-- ==== Sys2Proof/Laws/State.lean ====
section
/-! SUPPORT. Laws/State.lean: what each named update does to each field of State, true by rfl, so that no later proof unfolds a record
update. -/

namespace Sys2Proof.Machine

/-! ### State.record -/

@[simp] theorem State.record_cfg (s : State) (e : Event) : (s.record e).cfg = s.cfg := rfl
@[simp] theorem State.record_addr (s : State) (e : Event) : (s.record e).addr = s.addr := rfl
@[simp] theorem State.record_params (s : State) (e : Event) : (s.record e).params = s.params := rfl
@[simp] theorem State.record_rx (s : State) (e : Event) : (s.record e).rx = s.rx := rfl
@[simp] theorem State.record_tx (s : State) (e : Event) : (s.record e).tx = s.tx := rfl
@[simp] theorem State.record_fcRequest (s : State) (e : Event) : (s.record e).fcRequest = s.fcRequest := rfl
@[simp] theorem State.record_fcSlot (s : State) (e : Event) : (s.record e).fcSlot = s.fcSlot := rfl
@[simp] theorem State.record_txQueue (s : State) (e : Event) : (s.record e).txQueue = s.txQueue := rfl
@[simp] theorem State.record_rxQueue (s : State) (e : Event) : (s.record e).rxQueue = s.rxQueue := rfl
@[simp] theorem State.record_phase (s : State) (e : Event) : (s.record e).phase = s.phase := rfl
@[simp] theorem State.record_now (s : State) (e : Event) : (s.record e).now = s.now := rfl
@[simp] theorem State.record_snap (s : State) (e : Event) : (s.record e).snap = s.snap := rfl
@[simp] theorem State.record_host1 (s : State) (e : Event) : (s.record e).host1 = s.host1 := rfl
@[simp] theorem State.record_host2 (s : State) (e : Event) : (s.record e).host2 = s.host2 := rfl
@[simp] theorem State.record_turn (s : State) (e : Event) : (s.record e).turn = s.turn := rfl
@[simp] theorem State.record_caller (s : State) (e : Event) : (s.record e).caller = s.caller := rfl
@[simp] theorem State.record_driver (s : State) (e : Event) : (s.record e).driver = s.driver := rfl
@[simp] theorem State.record_rxPort (s : State) (e : Event) : (s.record e).rxPort = s.rxPort := rfl
@[simp] theorem State.record_log (s : State) (e : Event) : (s.record e).log = s.log ++ [e] := rfl
@[simp] theorem State.record_results (s : State) (e : Event) : (s.record e).results = s.results := rfl

/-! ### State.report -/

@[simp] theorem State.report_cfg (s : State) (e : ErrorEvent) : (s.report e).cfg = s.cfg := rfl
@[simp] theorem State.report_addr (s : State) (e : ErrorEvent) : (s.report e).addr = s.addr := rfl
@[simp] theorem State.report_params (s : State) (e : ErrorEvent) : (s.report e).params = s.params := rfl
@[simp] theorem State.report_rx (s : State) (e : ErrorEvent) : (s.report e).rx = s.rx := rfl
@[simp] theorem State.report_tx (s : State) (e : ErrorEvent) : (s.report e).tx = s.tx := rfl
@[simp] theorem State.report_fcRequest (s : State) (e : ErrorEvent) : (s.report e).fcRequest = s.fcRequest := rfl
@[simp] theorem State.report_fcSlot (s : State) (e : ErrorEvent) : (s.report e).fcSlot = s.fcSlot := rfl
@[simp] theorem State.report_txQueue (s : State) (e : ErrorEvent) : (s.report e).txQueue = s.txQueue := rfl
@[simp] theorem State.report_rxQueue (s : State) (e : ErrorEvent) : (s.report e).rxQueue = s.rxQueue := rfl
@[simp] theorem State.report_phase (s : State) (e : ErrorEvent) : (s.report e).phase = s.phase := rfl
@[simp] theorem State.report_now (s : State) (e : ErrorEvent) : (s.report e).now = s.now := rfl
@[simp] theorem State.report_snap (s : State) (e : ErrorEvent) : (s.report e).snap = s.snap := rfl
@[simp] theorem State.report_host1 (s : State) (e : ErrorEvent) : (s.report e).host1 = s.host1 := rfl
@[simp] theorem State.report_host2 (s : State) (e : ErrorEvent) : (s.report e).host2 = s.host2 := rfl
@[simp] theorem State.report_turn (s : State) (e : ErrorEvent) : (s.report e).turn = s.turn := rfl
@[simp] theorem State.report_caller (s : State) (e : ErrorEvent) : (s.report e).caller = s.caller := rfl
@[simp] theorem State.report_driver (s : State) (e : ErrorEvent) : (s.report e).driver = s.driver := rfl
@[simp] theorem State.report_rxPort (s : State) (e : ErrorEvent) : (s.report e).rxPort = s.rxPort := rfl
@[simp] theorem State.report_log (s : State) (e : ErrorEvent) : (s.report e).log = s.log ++ [.report e] := rfl
@[simp] theorem State.report_results (s : State) (e : ErrorEvent) : (s.report e).results = s.results := rfl

/-! ### State.emit -/

@[simp] theorem State.emit_cfg (s : State) (f : Frame) : (s.emit f).cfg = s.cfg := rfl
@[simp] theorem State.emit_addr (s : State) (f : Frame) : (s.emit f).addr = s.addr := rfl
@[simp] theorem State.emit_params (s : State) (f : Frame) : (s.emit f).params = s.params := rfl
@[simp] theorem State.emit_rx (s : State) (f : Frame) : (s.emit f).rx = s.rx := rfl
@[simp] theorem State.emit_tx (s : State) (f : Frame) : (s.emit f).tx = s.tx := rfl
@[simp] theorem State.emit_fcRequest (s : State) (f : Frame) : (s.emit f).fcRequest = s.fcRequest := rfl
@[simp] theorem State.emit_fcSlot (s : State) (f : Frame) : (s.emit f).fcSlot = s.fcSlot := rfl
@[simp] theorem State.emit_txQueue (s : State) (f : Frame) : (s.emit f).txQueue = s.txQueue := rfl
@[simp] theorem State.emit_rxQueue (s : State) (f : Frame) : (s.emit f).rxQueue = s.rxQueue := rfl
@[simp] theorem State.emit_phase (s : State) (f : Frame) : (s.emit f).phase = s.phase := rfl
@[simp] theorem State.emit_now (s : State) (f : Frame) : (s.emit f).now = s.now := rfl
@[simp] theorem State.emit_snap (s : State) (f : Frame) : (s.emit f).snap = s.snap := rfl
@[simp] theorem State.emit_host1 (s : State) (f : Frame) : (s.emit f).host1 = s.host1 := rfl
@[simp] theorem State.emit_host2 (s : State) (f : Frame) : (s.emit f).host2 = s.host2 := rfl
@[simp] theorem State.emit_turn (s : State) (f : Frame) : (s.emit f).turn = s.turn := rfl
@[simp] theorem State.emit_caller (s : State) (f : Frame) : (s.emit f).caller = s.caller := rfl
@[simp] theorem State.emit_driver (s : State) (f : Frame) : (s.emit f).driver = s.driver := rfl
@[simp] theorem State.emit_rxPort (s : State) (f : Frame) : (s.emit f).rxPort = s.rxPort := rfl
@[simp] theorem State.emit_log (s : State) (f : Frame) : (s.emit f).log = s.log ++ [.emit f] := rfl
@[simp] theorem State.emit_results (s : State) (f : Frame) : (s.emit f).results = s.results := rfl

/-! ### State.answer -/

@[simp] theorem State.answer_cfg (s : State) (st : Status) (v : Value) : (s.answer st v).cfg = s.cfg := rfl
@[simp] theorem State.answer_addr (s : State) (st : Status) (v : Value) : (s.answer st v).addr = s.addr := rfl
@[simp] theorem State.answer_params (s : State) (st : Status) (v : Value) : (s.answer st v).params = s.params := rfl
@[simp] theorem State.answer_rx (s : State) (st : Status) (v : Value) : (s.answer st v).rx = s.rx := rfl
@[simp] theorem State.answer_tx (s : State) (st : Status) (v : Value) : (s.answer st v).tx = s.tx := rfl
@[simp] theorem State.answer_fcRequest (s : State) (st : Status) (v : Value) : (s.answer st v).fcRequest = s.fcRequest := rfl
@[simp] theorem State.answer_fcSlot (s : State) (st : Status) (v : Value) : (s.answer st v).fcSlot = s.fcSlot := rfl
@[simp] theorem State.answer_txQueue (s : State) (st : Status) (v : Value) : (s.answer st v).txQueue = s.txQueue := rfl
@[simp] theorem State.answer_rxQueue (s : State) (st : Status) (v : Value) : (s.answer st v).rxQueue = s.rxQueue := rfl
@[simp] theorem State.answer_phase (s : State) (st : Status) (v : Value) : (s.answer st v).phase = s.phase := rfl
@[simp] theorem State.answer_now (s : State) (st : Status) (v : Value) : (s.answer st v).now = s.now := rfl
@[simp] theorem State.answer_snap (s : State) (st : Status) (v : Value) : (s.answer st v).snap = s.snap := rfl
@[simp] theorem State.answer_host1 (s : State) (st : Status) (v : Value) : (s.answer st v).host1 = s.host1 := rfl
@[simp] theorem State.answer_host2 (s : State) (st : Status) (v : Value) : (s.answer st v).host2 = s.host2 := rfl
@[simp] theorem State.answer_turn (s : State) (st : Status) (v : Value) : (s.answer st v).turn = s.turn := rfl
@[simp] theorem State.answer_caller (s : State) (st : Status) (v : Value) : (s.answer st v).caller = s.caller := rfl
@[simp] theorem State.answer_driver (s : State) (st : Status) (v : Value) : (s.answer st v).driver = s.driver := rfl
@[simp] theorem State.answer_rxPort (s : State) (st : Status) (v : Value) : (s.answer st v).rxPort = s.rxPort := rfl
@[simp] theorem State.answer_log (s : State) (st : Status) (v : Value) : (s.answer st v).log = s.log := rfl
@[simp] theorem State.answer_results (s : State) (st : Status) (v : Value) : (s.answer st v).results = s.results ++ [⟨s.caller, st, v⟩] := rfl

/-! ### rxToIdle -/

@[simp] theorem rxToIdle_cfg (s : State) : (rxToIdle s).cfg = s.cfg := rfl
@[simp] theorem rxToIdle_addr (s : State) : (rxToIdle s).addr = s.addr := rfl
@[simp] theorem rxToIdle_params (s : State) : (rxToIdle s).params = s.params := rfl
@[simp] theorem rxToIdle_rx (s : State) : (rxToIdle s).rx = RxRegs.reset := rfl
@[simp] theorem rxToIdle_tx (s : State) : (rxToIdle s).tx = s.tx := rfl
@[simp] theorem rxToIdle_fcRequest (s : State) : (rxToIdle s).fcRequest = false := rfl
@[simp] theorem rxToIdle_fcSlot (s : State) : (rxToIdle s).fcSlot = s.fcSlot := rfl
@[simp] theorem rxToIdle_txQueue (s : State) : (rxToIdle s).txQueue = s.txQueue := rfl
@[simp] theorem rxToIdle_rxQueue (s : State) : (rxToIdle s).rxQueue = s.rxQueue := rfl
@[simp] theorem rxToIdle_phase (s : State) : (rxToIdle s).phase = s.phase := rfl
@[simp] theorem rxToIdle_now (s : State) : (rxToIdle s).now = s.now := rfl
@[simp] theorem rxToIdle_snap (s : State) : (rxToIdle s).snap = s.snap := rfl
@[simp] theorem rxToIdle_host1 (s : State) : (rxToIdle s).host1 = s.host1 := rfl
@[simp] theorem rxToIdle_host2 (s : State) : (rxToIdle s).host2 = s.host2 := rfl
@[simp] theorem rxToIdle_turn (s : State) : (rxToIdle s).turn = s.turn := rfl
@[simp] theorem rxToIdle_caller (s : State) : (rxToIdle s).caller = s.caller := rfl
@[simp] theorem rxToIdle_driver (s : State) : (rxToIdle s).driver = s.driver := rfl
@[simp] theorem rxToIdle_rxPort (s : State) : (rxToIdle s).rxPort = s.rxPort := rfl
@[simp] theorem rxToIdle_log (s : State) : (rxToIdle s).log = s.log := rfl
@[simp] theorem rxToIdle_results (s : State) : (rxToIdle s).results = s.results := rfl

/-! ### txToIdle -/

@[simp] theorem txToIdle_cfg (s : State) : (txToIdle s).cfg = s.cfg := rfl
@[simp] theorem txToIdle_addr (s : State) : (txToIdle s).addr = s.addr := rfl
@[simp] theorem txToIdle_params (s : State) : (txToIdle s).params = s.params := rfl
@[simp] theorem txToIdle_rx (s : State) : (txToIdle s).rx = s.rx := rfl
@[simp] theorem txToIdle_tx (s : State) : (txToIdle s).tx = TxRegs.reset := rfl
@[simp] theorem txToIdle_fcRequest (s : State) : (txToIdle s).fcRequest = s.fcRequest := rfl
@[simp] theorem txToIdle_fcSlot (s : State) : (txToIdle s).fcSlot = s.fcSlot := rfl
@[simp] theorem txToIdle_txQueue (s : State) : (txToIdle s).txQueue = s.txQueue := rfl
@[simp] theorem txToIdle_rxQueue (s : State) : (txToIdle s).rxQueue = s.rxQueue := rfl
@[simp] theorem txToIdle_phase (s : State) : (txToIdle s).phase = s.phase := rfl
@[simp] theorem txToIdle_now (s : State) : (txToIdle s).now = s.now := rfl
@[simp] theorem txToIdle_snap (s : State) : (txToIdle s).snap = s.snap := rfl
@[simp] theorem txToIdle_host1 (s : State) : (txToIdle s).host1 = s.host1 := rfl
@[simp] theorem txToIdle_host2 (s : State) : (txToIdle s).host2 = s.host2 := rfl
@[simp] theorem txToIdle_turn (s : State) : (txToIdle s).turn = s.turn := rfl
@[simp] theorem txToIdle_caller (s : State) : (txToIdle s).caller = s.caller := rfl
@[simp] theorem txToIdle_driver (s : State) : (txToIdle s).driver = s.driver := rfl
@[simp] theorem txToIdle_rxPort (s : State) : (txToIdle s).rxPort = s.rxPort := rfl
@[simp] theorem txToIdle_log (s : State) : (txToIdle s).log = s.log := rfl
@[simp] theorem txToIdle_results (s : State) : (txToIdle s).results = s.results := rfl

/-! ### armRxCf -/

@[simp] theorem armRxCf_cfg (s : State) : (armRxCf s).cfg = s.cfg := rfl
@[simp] theorem armRxCf_addr (s : State) : (armRxCf s).addr = s.addr := rfl
@[simp] theorem armRxCf_params (s : State) : (armRxCf s).params = s.params := rfl
@[simp] theorem armRxCf_rx (s : State) : (armRxCf s).rx = { s.rx with cfTimer := .armed s.now } := rfl
@[simp] theorem armRxCf_tx (s : State) : (armRxCf s).tx = s.tx := rfl
@[simp] theorem armRxCf_fcRequest (s : State) : (armRxCf s).fcRequest = s.fcRequest := rfl
@[simp] theorem armRxCf_fcSlot (s : State) : (armRxCf s).fcSlot = s.fcSlot := rfl
@[simp] theorem armRxCf_txQueue (s : State) : (armRxCf s).txQueue = s.txQueue := rfl
@[simp] theorem armRxCf_rxQueue (s : State) : (armRxCf s).rxQueue = s.rxQueue := rfl
@[simp] theorem armRxCf_phase (s : State) : (armRxCf s).phase = s.phase := rfl
@[simp] theorem armRxCf_now (s : State) : (armRxCf s).now = s.now := rfl
@[simp] theorem armRxCf_snap (s : State) : (armRxCf s).snap = s.snap := rfl
@[simp] theorem armRxCf_host1 (s : State) : (armRxCf s).host1 = s.host1 := rfl
@[simp] theorem armRxCf_host2 (s : State) : (armRxCf s).host2 = s.host2 := rfl
@[simp] theorem armRxCf_turn (s : State) : (armRxCf s).turn = s.turn := rfl
@[simp] theorem armRxCf_caller (s : State) : (armRxCf s).caller = s.caller := rfl
@[simp] theorem armRxCf_driver (s : State) : (armRxCf s).driver = s.driver := rfl
@[simp] theorem armRxCf_rxPort (s : State) : (armRxCf s).rxPort = s.rxPort := rfl
@[simp] theorem armRxCf_log (s : State) : (armRxCf s).log = s.log := rfl
@[simp] theorem armRxCf_results (s : State) : (armRxCf s).results = s.results := rfl

/-! ### armTxFc -/

@[simp] theorem armTxFc_cfg (s : State) : (armTxFc s).cfg = s.cfg := rfl
@[simp] theorem armTxFc_addr (s : State) : (armTxFc s).addr = s.addr := rfl
@[simp] theorem armTxFc_params (s : State) : (armTxFc s).params = s.params := rfl
@[simp] theorem armTxFc_rx (s : State) : (armTxFc s).rx = s.rx := rfl
@[simp] theorem armTxFc_tx (s : State) : (armTxFc s).tx = { s.tx with fcTimer := .armed s.now } := rfl
@[simp] theorem armTxFc_fcRequest (s : State) : (armTxFc s).fcRequest = s.fcRequest := rfl
@[simp] theorem armTxFc_fcSlot (s : State) : (armTxFc s).fcSlot = s.fcSlot := rfl
@[simp] theorem armTxFc_txQueue (s : State) : (armTxFc s).txQueue = s.txQueue := rfl
@[simp] theorem armTxFc_rxQueue (s : State) : (armTxFc s).rxQueue = s.rxQueue := rfl
@[simp] theorem armTxFc_phase (s : State) : (armTxFc s).phase = s.phase := rfl
@[simp] theorem armTxFc_now (s : State) : (armTxFc s).now = s.now := rfl
@[simp] theorem armTxFc_snap (s : State) : (armTxFc s).snap = s.snap := rfl
@[simp] theorem armTxFc_host1 (s : State) : (armTxFc s).host1 = s.host1 := rfl
@[simp] theorem armTxFc_host2 (s : State) : (armTxFc s).host2 = s.host2 := rfl
@[simp] theorem armTxFc_turn (s : State) : (armTxFc s).turn = s.turn := rfl
@[simp] theorem armTxFc_caller (s : State) : (armTxFc s).caller = s.caller := rfl
@[simp] theorem armTxFc_driver (s : State) : (armTxFc s).driver = s.driver := rfl
@[simp] theorem armTxFc_rxPort (s : State) : (armTxFc s).rxPort = s.rxPort := rfl
@[simp] theorem armTxFc_log (s : State) : (armTxFc s).log = s.log := rfl
@[simp] theorem armTxFc_results (s : State) : (armTxFc s).results = s.results := rfl

/-! ### armTxStmin -/

@[simp] theorem armTxStmin_cfg (s : State) : (armTxStmin s).cfg = s.cfg := rfl
@[simp] theorem armTxStmin_addr (s : State) : (armTxStmin s).addr = s.addr := rfl
@[simp] theorem armTxStmin_params (s : State) : (armTxStmin s).params = s.params := rfl
@[simp] theorem armTxStmin_rx (s : State) : (armTxStmin s).rx = s.rx := rfl
@[simp] theorem armTxStmin_tx (s : State) : (armTxStmin s).tx = { s.tx with stminTimer := .armed s.now } := rfl
@[simp] theorem armTxStmin_fcRequest (s : State) : (armTxStmin s).fcRequest = s.fcRequest := rfl
@[simp] theorem armTxStmin_fcSlot (s : State) : (armTxStmin s).fcSlot = s.fcSlot := rfl
@[simp] theorem armTxStmin_txQueue (s : State) : (armTxStmin s).txQueue = s.txQueue := rfl
@[simp] theorem armTxStmin_rxQueue (s : State) : (armTxStmin s).rxQueue = s.rxQueue := rfl
@[simp] theorem armTxStmin_phase (s : State) : (armTxStmin s).phase = s.phase := rfl
@[simp] theorem armTxStmin_now (s : State) : (armTxStmin s).now = s.now := rfl
@[simp] theorem armTxStmin_snap (s : State) : (armTxStmin s).snap = s.snap := rfl
@[simp] theorem armTxStmin_host1 (s : State) : (armTxStmin s).host1 = s.host1 := rfl
@[simp] theorem armTxStmin_host2 (s : State) : (armTxStmin s).host2 = s.host2 := rfl
@[simp] theorem armTxStmin_turn (s : State) : (armTxStmin s).turn = s.turn := rfl
@[simp] theorem armTxStmin_caller (s : State) : (armTxStmin s).caller = s.caller := rfl
@[simp] theorem armTxStmin_driver (s : State) : (armTxStmin s).driver = s.driver := rfl
@[simp] theorem armTxStmin_rxPort (s : State) : (armTxStmin s).rxPort = s.rxPort := rfl
@[simp] theorem armTxStmin_log (s : State) : (armTxStmin s).log = s.log := rfl
@[simp] theorem armTxStmin_results (s : State) : (armTxStmin s).results = s.results := rfl

/-! ### sessionReset -/

@[simp] theorem sessionReset_cfg (s : State) : (sessionReset s).cfg = s.cfg := rfl
@[simp] theorem sessionReset_addr (s : State) : (sessionReset s).addr = s.addr := rfl
@[simp] theorem sessionReset_params (s : State) : (sessionReset s).params = s.params := rfl
@[simp] theorem sessionReset_rx (s : State) : (sessionReset s).rx = RxRegs.reset := rfl
@[simp] theorem sessionReset_tx (s : State) : (sessionReset s).tx = TxRegs.reset := rfl
@[simp] theorem sessionReset_fcRequest (s : State) : (sessionReset s).fcRequest = false := rfl
@[simp] theorem sessionReset_fcSlot (s : State) : (sessionReset s).fcSlot = none := rfl
@[simp] theorem sessionReset_txQueue (s : State) : (sessionReset s).txQueue = [] := rfl
@[simp] theorem sessionReset_rxQueue (s : State) : (sessionReset s).rxQueue = [] := rfl
@[simp] theorem sessionReset_phase (s : State) : (sessionReset s).phase = s.phase := rfl
@[simp] theorem sessionReset_now (s : State) : (sessionReset s).now = s.now := rfl
@[simp] theorem sessionReset_snap (s : State) : (sessionReset s).snap = s.snap := rfl
@[simp] theorem sessionReset_host1 (s : State) : (sessionReset s).host1 = s.host1 := rfl
@[simp] theorem sessionReset_host2 (s : State) : (sessionReset s).host2 = s.host2 := rfl
@[simp] theorem sessionReset_turn (s : State) : (sessionReset s).turn = s.turn := rfl
@[simp] theorem sessionReset_caller (s : State) : (sessionReset s).caller = s.caller := rfl
@[simp] theorem sessionReset_driver (s : State) : (sessionReset s).driver = s.driver := rfl
@[simp] theorem sessionReset_rxPort (s : State) : (sessionReset s).rxPort = s.rxPort := rfl
@[simp] theorem sessionReset_log (s : State) : (sessionReset s).log = s.log := rfl
@[simp] theorem sessionReset_results (s : State) : (sessionReset s).results = s.results := rfl

/-! ### endTick -/

@[simp] theorem endTick_cfg (s : State) : (endTick s).cfg = s.cfg := rfl
@[simp] theorem endTick_addr (s : State) : (endTick s).addr = s.addr := rfl
@[simp] theorem endTick_params (s : State) : (endTick s).params = s.params := rfl
@[simp] theorem endTick_rx (s : State) : (endTick s).rx = s.rx := rfl
@[simp] theorem endTick_tx (s : State) : (endTick s).tx = s.tx := rfl
@[simp] theorem endTick_fcRequest (s : State) : (endTick s).fcRequest = s.fcRequest := rfl
@[simp] theorem endTick_fcSlot (s : State) : (endTick s).fcSlot = s.fcSlot := rfl
@[simp] theorem endTick_txQueue (s : State) : (endTick s).txQueue = s.txQueue := rfl
@[simp] theorem endTick_rxQueue (s : State) : (endTick s).rxQueue = s.rxQueue := rfl
@[simp] theorem endTick_phase (s : State) : (endTick s).phase = .idle := rfl
@[simp] theorem endTick_now (s : State) : (endTick s).now = s.now := rfl
@[simp] theorem endTick_snap (s : State) : (endTick s).snap = s.snap := rfl
@[simp] theorem endTick_host1 (s : State) : (endTick s).host1 = s.host1 := rfl
@[simp] theorem endTick_host2 (s : State) : (endTick s).host2 = s.host2 := rfl
@[simp] theorem endTick_turn (s : State) : (endTick s).turn = s.turn := rfl
@[simp] theorem endTick_caller (s : State) : (endTick s).caller = s.caller := rfl
@[simp] theorem endTick_driver (s : State) : (endTick s).driver = s.driver := rfl
@[simp] theorem endTick_rxPort (s : State) : (endTick s).rxPort = s.rxPort := rfl
@[simp] theorem endTick_log (s : State) : (endTick s).log = s.log := rfl
@[simp] theorem endTick_results (s : State) : (endTick s).results = s.results ++ [⟨s.driver, .ok, .nothing⟩] := rfl

/-! ### The registers at reset -/

@[simp] theorem RxRegs.reset_state : RxRegs.reset.state = .idle := rfl
@[simp] theorem RxRegs.reset_buf : RxRegs.reset.buf = [] := rfl
@[simp] theorem RxRegs.reset_len : RxRegs.reset.len = 0 := rfl
@[simp] theorem RxRegs.reset_lastSeq : RxRegs.reset.lastSeq = 0 := rfl
@[simp] theorem RxRegs.reset_blockCnt : RxRegs.reset.blockCnt = 0 := rfl
@[simp] theorem RxRegs.reset_cfTimer : RxRegs.reset.cfTimer = .disarmed := rfl
@[simp] theorem TxRegs.reset_state : TxRegs.reset.state = .idle := rfl
@[simp] theorem TxRegs.reset_buf : TxRegs.reset.buf = [] := rfl
@[simp] theorem TxRegs.reset_seq : TxRegs.reset.seq = 0 := rfl
@[simp] theorem TxRegs.reset_blockCnt : TxRegs.reset.blockCnt = 0 := rfl
@[simp] theorem TxRegs.reset_waitCnt : TxRegs.reset.waitCnt = 0 := rfl
@[simp] theorem TxRegs.reset_peerBs : TxRegs.reset.peerBs = 0 := rfl
@[simp] theorem TxRegs.reset_peerStminMs : TxRegs.reset.peerStminMs = 0 := rfl
@[simp] theorem TxRegs.reset_fcTimer : TxRegs.reset.fcTimer = .disarmed := rfl
@[simp] theorem TxRegs.reset_stminTimer : TxRegs.reset.stminTimer = .disarmed := rfl

end Sys2Proof.Machine
end

