-- ==== Sys2Proof/Laws/Ops.lean ====
section
/-! SUPPORT. Laws/Ops.lean: what each shared operation and each side of the tick engine can do, said once: the fields a receive-side
effect leaves alone (42_receive.md R202), those a transmit-side effect leaves alone (43_transmit.md R238), and the cases of the
operations with more than one outcome. -/

namespace Sys2Proof.Machine

/-! ## Small facts about the readers of State -/

@[simp] theorem Timer.isArmed_armed (t : Nat) : (Timer.armed t).isArmed = true := rfl
@[simp] theorem Timer.isArmed_disarmed : Timer.disarmed.isArmed = false := rfl
@[simp] theorem Timer.expired_disarmed (now d : Nat) : Timer.disarmed.expired now d = false := rfl

theorem Timer.expired_armed (start now d : Nat) :
    (Timer.armed start).expired now d = true ↔ d = 0 ∨ (d : Int) < (now : Int) - start := by
  simp [Timer.expired]

/-- An armed timer with duration 0 is expired (R11). -/
theorem Timer.expired_zero {t : Timer} (now : Nat) (h : t.isArmed = true) : t.expired now 0 = true := by
  cases t with
  | disarmed => cases h
  | armed start => simp [Timer.expired]

@[simp] theorem configured_some {s : State} {a : Addr} (h : s.addr = some a) : s.configured = true := by
  simp [State.configured, h]

@[simp] theorem configured_none {s : State} (h : s.addr = none) : s.configured = false := by
  simp [State.configured, h]

@[simp] theorem framesOf_append (l l' : List Event) : framesOf (l ++ l') = framesOf l ++ framesOf l' := by
  simp [framesOf]

@[simp] theorem errorsOf_append (l l' : List Event) : errorsOf (l ++ l') = errorsOf l ++ errorsOf l' := by
  simp [errorsOf]

@[simp] theorem deliveriesOf_append (l l' : List Event) : deliveriesOf (l ++ l') = deliveriesOf l ++ deliveriesOf l' := by
  simp [deliveriesOf]

@[simp] theorem framesOf_report (e : ErrorEvent) : framesOf [.report e] = [] := rfl
@[simp] theorem framesOf_deliver (m : List Byte) : framesOf [.deliver m] = [] := rfl
@[simp] theorem framesOf_emit (f : Frame) : framesOf [.emit f] = [f] := rfl
@[simp] theorem deliveriesOf_report (e : ErrorEvent) : deliveriesOf [.report e] = [] := rfl
@[simp] theorem deliveriesOf_deliver (m : List Byte) : deliveriesOf [.deliver m] = [m] := rfl
@[simp] theorem deliveriesOf_emit (f : Frame) : deliveriesOf [.emit f] = [] := rfl
@[simp] theorem errorsOf_report (e : ErrorEvent) : errorsOf [.report e] = [e] := rfl
@[simp] theorem errorsOf_deliver (m : List Byte) : errorsOf [.deliver m] = [] := rfl
@[simp] theorem errorsOf_emit (f : Frame) : errorsOf [.emit f] = [] := rfl

/-! ## The guards -/

theorem whenConfigured_some {s : State} {a : Addr} (h : s.addr = some a) (o : Out) : whenConfigured s o = o := by
  simp [whenConfigured, h]

theorem whenConfigured_none {s : State} (h : s.addr = none) (o : Out) :
    whenConfigured s o = .next (s.answer .illegalCommand) := by
  simp [whenConfigured, h]

theorem betweenTicks_idle {s : State} (h : s.phase = .idle) (o : Out) : betweenTicks s o = o := by
  simp [betweenTicks, h]

theorem betweenTicks_tick {s : State} (h : s.phase ≠ .idle) (o : Out) : betweenTicks s o = .refused .commandDuringTick := by
  cases hp : s.phase <;> simp_all [betweenTicks]

/-- A guarded command that answers a next state was issued between ticks (R323). -/
theorem betweenTicks_next {s t : State} {o : Out} (h : betweenTicks s o = .next t) : s.phase = .idle ∧ o = .next t := by
  cases hp : s.phase <;> simp_all [betweenTicks]

/-- A lifecycle-guarded command that answers a next state ran, or was illegal and only answered (R262). -/
theorem whenConfigured_next {s t : State} {o : Out} (h : whenConfigured s o = .next t) :
    (∃ a, s.addr = some a ∧ o = .next t) ∨ (s.addr = none ∧ t = s.answer .illegalCommand) := by
  cases ha : s.addr with
  | none => rw [whenConfigured_none ha] at h; cases h; exact .inr ⟨rfl, rfl⟩
  | some a => rw [whenConfigured_some ha] at h; exact .inl ⟨a, rfl, h⟩

/-! ## The receive side -/

/-- `t` differs from `s` only in what the receive side may write (R202): the receive registers, the two handoff registers, `rx_queue`
and the log. -/
structure RxOnly (s t : State) : Prop where
  cfg : t.cfg = s.cfg
  addr : t.addr = s.addr
  params : t.params = s.params
  tx : t.tx = s.tx
  txQueue : t.txQueue = s.txQueue
  phase : t.phase = s.phase
  now : t.now = s.now
  snap : t.snap = s.snap
  host1 : t.host1 = s.host1
  host2 : t.host2 = s.host2
  turn : t.turn = s.turn
  caller : t.caller = s.caller
  driver : t.driver = s.driver
  rxPort : t.rxPort = s.rxPort
  results : t.results = s.results

theorem RxOnly.refl (s : State) : RxOnly s s := by constructor <;> rfl

theorem RxOnly.trans {s t u : State} (h : RxOnly s t) (k : RxOnly t u) : RxOnly s u := by
  constructor <;> first
    | exact k.cfg.trans h.cfg | exact k.addr.trans h.addr | exact k.params.trans h.params | exact k.tx.trans h.tx
    | exact k.txQueue.trans h.txQueue | exact k.phase.trans h.phase | exact k.now.trans h.now | exact k.snap.trans h.snap
    | exact k.host1.trans h.host1 | exact k.host2.trans h.host2 | exact k.turn.trans h.turn
    | exact k.caller.trans h.caller | exact k.driver.trans h.driver | exact k.rxPort.trans h.rxPort | exact k.results.trans h.results

theorem RxOnly.eq_with {s t : State} (h : RxOnly s t) :
    t = { s with rx := t.rx, fcRequest := t.fcRequest, fcSlot := t.fcSlot, rxQueue := t.rxQueue, log := t.log } := by
  obtain ⟨h1, h2, h3, h4, h5, h6, h7, h8, h9, h10, h11, h12, h13, h14⟩ := h
  cases t
  simp_all

theorem report_rxOnly (s : State) (e : ErrorEvent) : RxOnly s (s.report e) := by constructor <;> rfl

theorem rxToIdle_rxOnly (s : State) : RxOnly s (rxToIdle s) := by constructor <;> rfl

/-- Both outcomes of a delivery (R212). -/
theorem deliver_cases (m : List Byte) (s : State) :
    (s.rxQueue.length < s.cfg.rxqDepth ∧
      deliver m s = { s with rxQueue := s.rxQueue ++ [m], log := s.log ++ [.deliver m] })
    ∨ (s.cfg.rxqDepth ≤ s.rxQueue.length ∧ deliver m s = s.report (.rxQueueOverflow m.length)) := by
  unfold deliver
  split
  · exact .inr ⟨‹_›, rfl⟩
  · exact .inl ⟨by omega, rfl⟩

theorem deliver_room {m : List Byte} {s : State} (h : s.rxQueue.length < s.cfg.rxqDepth) :
    deliver m s = { s with rxQueue := s.rxQueue ++ [m], log := s.log ++ [.deliver m] } := by
  rw [deliver, if_neg (by omega)]; rfl

theorem deliver_full {m : List Byte} {s : State} (h : s.cfg.rxqDepth ≤ s.rxQueue.length) :
    deliver m s = s.report (.rxQueueOverflow m.length) := by
  rw [deliver, if_pos h]

theorem deliver_rxOnly (m : List Byte) (s : State) : RxOnly s (deliver m s) := by
  obtain ⟨-, h⟩ | ⟨-, h⟩ := deliver_cases m s <;> rw [h] <;> constructor <;> rfl

@[simp] theorem deliver_rx (m : List Byte) (s : State) : (deliver m s).rx = s.rx := by
  obtain ⟨-, h⟩ | ⟨-, h⟩ := deliver_cases m s <;> simp [h]

@[simp] theorem deliver_fcRequest (m : List Byte) (s : State) : (deliver m s).fcRequest = s.fcRequest := by
  obtain ⟨-, h⟩ | ⟨-, h⟩ := deliver_cases m s <;> simp [h]

@[simp] theorem deliver_fcSlot (m : List Byte) (s : State) : (deliver m s).fcSlot = s.fcSlot := by
  obtain ⟨-, h⟩ | ⟨-, h⟩ := deliver_cases m s <;> simp [h]

/-- What a receive-side effect adds to the outputs (R184): events that are no emission, and at most one message. -/
structure RxGain (s t : State) : Prop where
  log : ∃ es, t.log = s.log ++ es ∧ framesOf es = []
  queue : t.rxQueue = s.rxQueue ∨ ∃ m, t.rxQueue = s.rxQueue ++ [m]

theorem report_rxGain (s : State) (e : ErrorEvent) : RxGain s (s.report e) := ⟨⟨[.report e], rfl, rfl⟩, .inl rfl⟩

theorem deliver_rxGain (m : List Byte) (s : State) : RxGain s (deliver m s) := by
  obtain ⟨-, h⟩ | ⟨-, h⟩ := deliver_cases m s <;> rw [h]
  · exact ⟨⟨[.deliver m], rfl, rfl⟩, .inr ⟨m, rfl⟩⟩
  · exact report_rxGain _ _

/-- A gain after a change that keeps `rx_queue`. -/
theorem RxGain.after {s t u : State} (k : RxGain t u) (hl : ∃ es, t.log = s.log ++ es ∧ framesOf es = [])
    (hq : t.rxQueue = s.rxQueue) : RxGain s u := by
  obtain ⟨es, h1, h2⟩ := hl
  obtain ⟨⟨es', k1, k2⟩, kq⟩ := k
  exact ⟨⟨es ++ es', by rw [k1, h1, List.append_assoc], by simp [h2, k2]⟩, by rwa [hq] at kq⟩

/-! ## The transmit side -/

/-- `t` differs from `s` only in what the transmit side may write (R238): the transmit registers, the two handoff registers, `tx_queue`
and the log. -/
structure TxOnly (s t : State) : Prop where
  cfg : t.cfg = s.cfg
  addr : t.addr = s.addr
  params : t.params = s.params
  rx : t.rx = s.rx
  rxQueue : t.rxQueue = s.rxQueue
  phase : t.phase = s.phase
  now : t.now = s.now
  snap : t.snap = s.snap
  host1 : t.host1 = s.host1
  host2 : t.host2 = s.host2
  turn : t.turn = s.turn
  caller : t.caller = s.caller
  driver : t.driver = s.driver
  rxPort : t.rxPort = s.rxPort
  results : t.results = s.results

theorem TxOnly.refl (s : State) : TxOnly s s := by constructor <;> rfl

theorem TxOnly.trans {s t u : State} (h : TxOnly s t) (k : TxOnly t u) : TxOnly s u := by
  constructor <;> first
    | exact k.cfg.trans h.cfg | exact k.addr.trans h.addr | exact k.params.trans h.params | exact k.rx.trans h.rx
    | exact k.rxQueue.trans h.rxQueue | exact k.phase.trans h.phase | exact k.now.trans h.now | exact k.snap.trans h.snap
    | exact k.host1.trans h.host1 | exact k.host2.trans h.host2 | exact k.turn.trans h.turn
    | exact k.caller.trans h.caller | exact k.driver.trans h.driver | exact k.rxPort.trans h.rxPort | exact k.results.trans h.results

theorem TxOnly.eq_with {s t : State} (h : TxOnly s t) :
    t = { s with tx := t.tx, fcRequest := t.fcRequest, fcSlot := t.fcSlot, txQueue := t.txQueue, log := t.log } := by
  obtain ⟨h1, h2, h3, h4, h5, h6, h7, h8, h9, h10, h11, h12, h13, h14⟩ := h
  cases t
  simp_all

theorem report_txOnly (s : State) (e : ErrorEvent) : TxOnly s (s.report e) := by constructor <;> rfl

theorem emit_txOnly (s : State) (f : Frame) : TxOnly s (s.emit f) := by constructor <;> rfl

theorem txToIdle_txOnly (s : State) : TxOnly s (txToIdle s) := by constructor <;> rfl

theorem armTxFc_txOnly (s : State) : TxOnly s (armTxFc s) := by constructor <;> rfl

end Sys2Proof.Machine
end

