-- ==== Sys2Proof/Laws/HostCommands.lean ====
section
/-! SUPPORT. Laws/HostCommands.lean: what each shared host operation can answer, said once (44_host.md). -/

namespace Sys2Proof.Machine

/-! ## Which shared operation each constructor runs -/

theorem exec_setStmin (v : ParamValue) (s : State) :
    exec (.setStmin v) s = setParam (paramByte v) (fun p x => { p with stmin := x }) s := rfl

theorem exec_setBlocksize (v : ParamValue) (s : State) :
    exec (.setBlocksize v) s = setParam (paramByte v) (fun p x => { p with blocksize := x }) s := rfl

theorem exec_setSquashTiming (v : ParamValue) (s : State) :
    exec (.setSquashTiming v) s = setParam (paramBool v) (fun p x => { p with squashTiming := x }) s := rfl

theorem exec_setRxFlowcontrolTimeout (v : ParamValue) (s : State) :
    exec (.setRxFlowcontrolTimeout v) s = setParam (paramNat s.cfg v) (fun p x => { p with rxFlowcontrolTimeout := x }) s := rfl

theorem exec_setRxConsecutiveFrameTimeout (v : ParamValue) (s : State) :
    exec (.setRxConsecutiveFrameTimeout v) s = setParam (paramNat s.cfg v) (fun p x => { p with rxConsecutiveFrameTimeout := x }) s := rfl

theorem exec_setTxPadding (v : ParamValue) (s : State) :
    exec (.setTxPadding v) s = setParam (paramPadding v) (fun p x => { p with txPadding := x }) s := rfl

theorem exec_setMaxWaitFrames (v : ParamValue) (s : State) :
    exec (.setMaxWaitFrames v) s = setParam (paramNat s.cfg v) (fun p x => { p with maxWaitFrames := x }) s := rfl

theorem exec_setLlDataLength (v : ParamValue) (s : State) :
    exec (.setLlDataLength v) s = setParam (paramNat s.cfg v) (fun p x => { p with llDataLength := x }) s := rfl

theorem exec_createInstr (m : Mode) (f : AddrFields) (s : State) : exec (createInstr m f) s = create m f s := by
  cases m <;> rfl

/-! ## Their outcomes -/

/-- An accepted message (R264). -/
theorem submit_ok {m : List Byte} {tgt : Target} {s : State} {a : Addr} (ha : s.addr = some a)
    (h : submitStatus m tgt s = .ok) :
    submit m tgt s = .next (State.answer { s with txQueue := s.txQueue ++ [⟨m, tgt⟩] } .ok) := by
  rw [submit, whenConfigured_some ha, h]

/-- A rejected message (R264). -/
theorem submit_rejected {m : List Byte} {tgt : Target} {s : State} {a : Addr} {st : Status} (ha : s.addr = some a)
    (h : submitStatus m tgt s = st) (hn : st ≠ .ok) : submit m tgt s = .next (s.answer st) := by
  rw [submit, whenConfigured_some ha, h]
  cases st <;> first | rfl | exact absurd rfl hn

/-- Every outcome of `submit` (R264): the message queued, or only an answer. -/
theorem submit_next {m : List Byte} {tgt : Target} {s t : State} (h : submit m tgt s = .next t) :
    (s.configured = true ∧ 1 ≤ m.length ∧ m.length ≤ Config.maxMsgLen ∧ s.txQueue.length < s.cfg.txqDepth ∧
      t = State.answer { s with txQueue := s.txQueue ++ [⟨m, tgt⟩] } .ok)
    ∨ ∃ st, t = s.answer st := by
  obtain ⟨a, ha, h⟩ | ⟨-, h⟩ := whenConfigured_next h
  · split at h
    · rename_i hs
      cases h
      refine .inl ⟨configured_some ha, ?_⟩
      unfold submitStatus at hs
      split at hs
      · cases hs
      · split at hs
        · cases hs
        · split at hs
          · cases hs
          · exact ⟨by omega, by omega, by omega, rfl⟩
    · cases h; exact .inr ⟨_, rfl⟩
  · exact .inr ⟨_, h⟩

/-- Every outcome of `POLL` (R268). -/
theorem execPoll_next {s t : State} (h : execPoll s = .next t) :
    (∃ m rest, s.rxQueue = m :: rest ∧ t = State.answer { s with rxQueue := rest } .ok (.message m))
    ∨ ∃ st v, t = s.answer st v := by
  obtain ⟨a, ha, h⟩ | ⟨-, h⟩ := whenConfigured_next h
  · split at h
    · cases h; exact .inr ⟨_, _, rfl⟩
    · cases h; exact .inl ⟨_, _, ‹_›, rfl⟩
  · exact .inr ⟨_, _, h⟩

/-- Every outcome of `create` (R260, R261). -/
theorem create_next {m : Mode} {f : AddrFields} {s t : State} (h : create m f s = .next t) :
    s.phase = .idle ∧
      ((∃ a, s.addr = none ∧ resolve m f = some a ∧ t = (sessionReset { s with addr := some a }).answer .ok)
      ∨ ∃ st, t = s.answer st) := by
  obtain ⟨hp, h⟩ := betweenTicks_next h
  refine ⟨hp, ?_⟩
  split at h
  · cases h; exact .inr ⟨_, rfl⟩
  · split at h
    · cases h; exact .inr ⟨_, rfl⟩
    · cases h; exact .inl ⟨_, ‹_›, ‹_›, rfl⟩

/-- Every outcome of `set_param` (R290): one field written, or only an answer. -/
theorem setParam_next {α : Type} {legal : Option α} {write : Params → α → Params} {s t : State}
    (h : setParam legal write s = .next t) :
    s.phase = .idle ∧
      ((∃ x, legal = some x ∧ t = State.answer { s with params := write s.params x } .ok) ∨ ∃ st, t = s.answer st) := by
  obtain ⟨hp, h⟩ := betweenTicks_next h
  refine ⟨hp, ?_⟩
  split at h
  · cases h; exact .inr ⟨_, rfl⟩
  · cases h; exact .inl ⟨_, rfl, rfl⟩

/-- Every outcome of `RESET` (R280). -/
theorem execReset_next {s t : State} (h : execReset s = .next t) :
    s.phase = .idle ∧ (t = (sessionReset s).answer .ok ∨ ∃ st, t = s.answer st) := by
  obtain ⟨hp, h⟩ := betweenTicks_next h
  refine ⟨hp, ?_⟩
  obtain ⟨a, -, h⟩ | ⟨-, h⟩ := whenConfigured_next h
  · cases h; exact .inl rfl
  · exact .inr ⟨_, h⟩

/-- The commands that only read answer and change nothing else (R283, R284, R286). -/
theorem execAvailable_next {s t : State} (h : execAvailable s = .next t) : ∃ st v, t = s.answer st v := by
  obtain ⟨a, -, h⟩ | ⟨-, h⟩ := whenConfigured_next h
  · cases h; exact ⟨_, _, rfl⟩
  · exact ⟨_, _, h⟩

theorem execTransmitting_next {s t : State} (h : execTransmitting s = .next t) : ∃ st v, t = s.answer st v := by
  obtain ⟨a, -, h⟩ | ⟨-, h⟩ := whenConfigured_next (betweenTicks_next h).2
  · cases h; exact ⟨_, _, rfl⟩
  · exact ⟨_, _, h⟩

theorem execIdleSleep_next {s t : State} (h : execIdleSleep s = .next t) : ∃ st v, t = s.answer st v := by
  obtain ⟨a, -, h⟩ | ⟨-, h⟩ := whenConfigured_next (betweenTicks_next h).2
  · cases h; exact ⟨_, _, rfl⟩
  · exact ⟨_, _, h⟩

/-- Every outcome of `PROCESS` (R271, R272). -/
theorem execProcess_next {now : Nat} {s t : State} (h : execProcess now s = .next t) :
    s.phase = .idle ∧ ((s.configured = true ∧ s.now ≤ now ∧ t = startTick now s) ∨ ∃ st, t = s.answer st) := by
  obtain ⟨hp, h⟩ := betweenTicks_next h
  refine ⟨hp, ?_⟩
  obtain ⟨a, ha, h⟩ | ⟨-, h⟩ := whenConfigured_next h
  · split at h
    · cases h
    · cases h; exact .inl ⟨configured_some ha, by omega, rfl⟩
  · exact .inr ⟨_, h⟩

/-- Both outcomes of the consecutive-frame timeout check (R180). -/
theorem rxTimeoutCheck_cases (s : State) :
    (s.rx.state = .waitCf ∧ s.rx.cfTimer.expired s.now s.snap.rxConsecutiveFrameTimeout = true ∧
      rxTimeoutCheck s = rxToIdle (s.report .consecutiveFrameTimeout))
    ∨ rxTimeoutCheck s = s := by
  unfold rxTimeoutCheck; split
  · exact .inl ⟨‹_ ∧ _›.1, ‹_ ∧ _›.2, rfl⟩
  · exact .inr rfl

/-- The legal values (R44), as numbers. -/
theorem paramNat_le {c : Config} {v : ParamValue} {n : Nat} (h : paramNat c v = some n) : n ≤ c.paramMax := by
  unfold paramNat at h
  split at h
  · split at h
    · cases h; assumption
    · cases h
  · cases h
  · cases h

/-- A command that is not concurrent answers only between ticks (R323). -/
theorem exec_tick {i : Instr} {s t : State} (h : exec i s = .next t) (hp : i.isPdu = false) (hc : i.concurrent = false) :
    s.phase = .idle := by
  cases i <;> simp [Instr.isPdu, Instr.concurrent] at hp hc
  all_goals exact (betweenTicks_next h).1

end Sys2Proof.Machine
end

