-- ==== Sys2Proof/Laws/Operands.lean ====
section
/-! SUPPORT. Laws/Operands.lean: the resolver's field checks and the receive filter's comparisons, as facts about numbers. -/

namespace Sys2Proof.Machine

/-- A required ID that passed its check (R121). -/
theorem requireId_eq_some {is29 : Bool} {o : Option Nat} {v : Nat} :
    requireId is29 o = some v ↔ o = some v ∧ v ≤ idMax is29 := by
  cases o with
  | none => simp [requireId]
  | some n =>
    dsimp only [requireId]
    by_cases h : n ≤ idMax is29
    · rw [if_pos h]
      refine ⟨fun e => ⟨e, ?_⟩, fun e => e.1⟩
      cases e; exact h
    · rw [if_neg h]
      refine iff_of_false (fun e => by cases e) ?_
      rintro ⟨e, k⟩
      cases e; exact h k

theorem requireId_eq_none {is29 : Bool} {o : Option Nat} :
    requireId is29 o = none ↔ ¬ ∃ v, o = some v ∧ v ≤ idMax is29 := by
  cases h : requireId is29 o with
  | none =>
    refine iff_of_true rfl ?_
    rintro ⟨v, hv⟩
    rw [requireId_eq_some.2 hv] at h
    cases h
  | some v => exact iff_of_false (Option.some_ne_none _) (fun k => k ⟨v, requireId_eq_some.1 h⟩)

/-- A required byte field that passed its check (R121). -/
theorem requireByte_eq_some {o : Option Nat} {b : Byte} : requireByte o = some b ↔ o = some b.toNat := by
  have hb := b.isLt
  cases o with
  | none => simp [requireByte]
  | some n =>
    dsimp only [requireByte]
    by_cases h : n ≤ 0xFF
    · rw [if_pos h, Option.some_inj, Option.some_inj, ← BitVec.toNat_inj, BitVec.toNat_ofNat]
      omega
    · rw [if_neg h, Option.some_inj]
      exact iff_of_false (Option.some_ne_none _).symm (by omega)

theorem requireByte_eq_none {o : Option Nat} : requireByte o = none ↔ ¬ ∃ v, o = some v ∧ v ≤ 0xFF := by
  cases o with
  | none => simp [requireByte]
  | some n =>
    dsimp only [requireByte]
    by_cases h : n ≤ 0xFF
    · rw [if_pos h]; exact iff_of_false (Option.some_ne_none _) (fun k => k ⟨n, rfl, h⟩)
    · rw [if_neg h]
      refine iff_of_true rfl ?_
      rintro ⟨v, e, k⟩
      cases e; exact h k

/-- The pattern IDs as sums of their fields (R95). -/
theorem fixedId_eq (pf x y : Byte) :
    fixedId pf x y = 0x18000000 + pf.toNat * 65536 + x.toNat * 256 + y.toNat := by
  have h1 := pf.isLt
  have h2 := x.isLt
  have h3 := y.isLt
  have e1 := Nat.shiftLeft_add_eq_or_of_lt (b := pf.toNat <<< 16) (i := 24) (by rw [Nat.shiftLeft_eq]; omega) 24
  have e2 := Nat.shiftLeft_add_eq_or_of_lt (b := x.toNat <<< 8) (i := 16) (by rw [Nat.shiftLeft_eq]; omega) (6144 + pf.toNat)
  have e3 := Nat.shiftLeft_add_eq_or_of_lt (b := y.toNat) (i := 8) (by omega) (1572864 + pf.toNat * 256 + x.toNat)
  norm_num [Nat.shiftLeft_eq, Nat.add_mul, Nat.mul_assoc] at e1 e2 e3
  norm_num [fixedId, Nat.shiftLeft_eq]
  rw [← e1, ← e2, ← e3]

/-- `id[lo+7:lo]` as a number (R7). -/
theorem idByte_eq (id lo : Nat) (b : Byte) : idByte id lo = b ↔ id / 2 ^ lo % 256 = b.toNat := by
  rw [← BitVec.toNat_inj, idByte, BitVec.toNat_ofNat, Nat.shiftRight_eq_div_pow]

theorem matchesConfiguredId_iff (a : Addr) (f : Frame) :
    matchesConfiguredId a f = true ↔ f.ext = a.is29 ∧ a.rxid = some f.id := by
  rw [matchesConfiguredId, Bool.and_eq_true, decide_eq_true_eq, decide_eq_true_eq, eq_comm (a := some f.id)]

theorem matchesPatternId_iff (p q sa ta : Byte) {a : Addr} (f : Frame) (h1 : a.sa = some sa) (h2 : a.ta = some ta) :
    matchesPatternId p q a f = true ↔
      f.ext = true ∧ (f.id / 65536 % 256 = p.toNat ∨ f.id / 65536 % 256 = q.toNat)
        ∧ f.id / 256 % 256 = sa.toNat ∧ f.id % 256 = ta.toNat := by
  have h0 : f.id / 2 ^ 0 % 256 = f.id % 256 := by rw [Nat.pow_zero, Nat.div_one]
  rw [matchesPatternId, h1, h2]
  simp only [Bool.and_eq_true, Bool.or_eq_true, decide_eq_true_eq, Option.some_inj, idByte_eq, and_assoc, h0]
  norm_num

theorem leadsWith_iff (b : Byte) (f : Frame) : leadsWith (some b) f = true ↔ ∃ rest, f.data = b :: rest := by
  unfold leadsWith
  split
  · rename_i h; rw [h]; exact iff_of_false Bool.false_ne_true (fun ⟨_, k⟩ => by cases k)
  · rename_i c rest h
    rw [h, decide_eq_true_eq, Option.some_inj]
    refine ⟨fun e => ⟨rest, by rw [e]⟩, fun ⟨_, e⟩ => ?_⟩
    cases e; rfl

end Sys2Proof.Machine
end

