-- ==== Sys2Proof/Laws/PerInstr.lean ====
section
/-! SUPPORT. Laws/PerInstr.lean: the family OpcodeMatch: the opcode byte of every encoded instruction has the fixed bits that
the opcode table gives its row (30_encoding.md R81, R101, R104, R106). -/

namespace Sys2Proof.Laws.OpcodeMatch

/-- The mask and the match value of an instruction's row. -/
def rowBits : Instr → Byte × Byte
  | .submitPhys _ => (0xFF, 0x01)
  | .submitFunc _ => (0xFF, 0x02)
  | .poll => (0xFF, 0x03)
  | .process _ => (0xFF, 0x04)
  | .reset => (0xFF, 0x05)
  | .available => (0xFF, 0x06)
  | .transmitting => (0xFF, 0x07)
  | .idleSleep => (0xFF, 0x08)
  | .setStmin _ => (0xFF, 0x10)
  | .setBlocksize _ => (0xFF, 0x11)
  | .setSquashTiming _ => (0xFF, 0x12)
  | .setRxFlowcontrolTimeout _ => (0xFF, 0x13)
  | .setRxConsecutiveFrameTimeout _ => (0xFF, 0x14)
  | .setTxPadding _ => (0xFF, 0x15)
  | .setMaxWaitFrames _ => (0xFF, 0x16)
  | .setLlDataLength _ => (0xFF, 0x17)
  | .createNormal11 _ => (0xFF, 0x20)
  | .createNormal29 _ => (0xFF, 0x21)
  | .createNormalFixed29 _ => (0xFF, 0x22)
  | .createExtended11 _ => (0xFF, 0x23)
  | .createExtended29 _ => (0xFF, 0x24)
  | .createMixed11 _ => (0xFF, 0x25)
  | .createMixed29 _ => (0xFF, 0x26)
  | .sf _ => (0xF0, 0x00)
  | .ff _ _ => (0xF0, 0x10)
  | .cf _ _ => (0xF0, 0x20)
  | .fcCts _ _ => (0xFF, 0x30)
  | .fcWait _ _ => (0xFF, 0x31)
  | .fcOvflw _ _ => (0xFF, 0x32)

/-- The opcode byte: the first byte of a host command word, the byte after the prefix in a PDU. -/
def opcodeByte (p : Nat) : Code → Option Byte
  | .host (.byte b :: _) => some b
  | .host _ => none
  | .pdu d => (d.drop p).head?

/-- The opcode byte of the encoding of `i` matches its row. -/
def Statement (i : Instr) : Prop :=
  ∀ pfx : List Byte, ∃ b, opcodeByte pfx.length (encode pfx i) = some b ∧ b &&& (rowBits i).1 = (rowBits i).2

/-- A full mask keeps the whole byte. -/
theorem fullMask (b : Byte) : b &&& 0xFF = b := BitVec.and_allOnes

/-- The first bytes of the three Flow Controls (R86). -/
theorem fcBytes : mkByte 3 FlowStatus.cts.nibble = 0x30 ∧ mkByte 3 FlowStatus.wait.nibble = 0x31
    ∧ mkByte 3 FlowStatus.ovflw.nibble = 0x32 := by decide

/-- The type nibble of a PDU is all the mask keeps (R81). -/
theorem mkByte_type (lo : Nibble) :
    mkByte 0 lo &&& 0xF0 = 0x00 ∧ mkByte 1 lo &&& 0xF0 = 0x10 ∧ mkByte 2 lo &&& 0xF0 = 0x20 := by
  revert lo; decide

/-- A host command's word starts with its opcode byte (R100). -/
theorem ofHost {i : Instr} {op : Byte} {ts : List Tok} (h : ∀ pfx, encode pfx i = .host (.byte op :: ts))
    (hr : rowBits i = (0xFF, op)) : Statement i := by
  intro pfx
  rw [h, hr]
  exact ⟨op, rfl, fullMask op⟩

/-- A PDU's first byte follows the prefix (R80). -/
theorem ofPdu {i : Instr} {b : Byte} {body : List Byte} (h : ∀ pfx, encode pfx i = .pdu (pfx ++ b :: body))
    (hr : b &&& (rowBits i).1 = (rowBits i).2) : Statement i := by
  intro pfx
  rw [h]
  exact ⟨b, by simp only [opcodeByte, List.drop_left]; rfl, hr⟩

theorem submitPhys (payload : List Byte) : Statement (.submitPhys payload) :=
  ofHost (fun _ => rfl) rfl

theorem submitFunc (payload : List Byte) : Statement (.submitFunc payload) :=
  ofHost (fun _ => rfl) rfl

theorem poll : Statement .poll :=
  ofHost (fun _ => rfl) rfl

theorem process (now : Nat) : Statement (.process now) :=
  ofHost (fun _ => rfl) rfl

theorem reset : Statement .reset :=
  ofHost (fun _ => rfl) rfl

theorem available : Statement .available :=
  ofHost (fun _ => rfl) rfl

theorem transmitting : Statement .transmitting :=
  ofHost (fun _ => rfl) rfl

theorem idleSleep : Statement .idleSleep :=
  ofHost (fun _ => rfl) rfl

theorem setStmin (v : ParamValue) : Statement (.setStmin v) :=
  ofHost (fun _ => rfl) rfl

theorem setBlocksize (v : ParamValue) : Statement (.setBlocksize v) :=
  ofHost (fun _ => rfl) rfl

theorem setSquashTiming (v : ParamValue) : Statement (.setSquashTiming v) :=
  ofHost (fun _ => rfl) rfl

theorem setRxFlowcontrolTimeout (v : ParamValue) : Statement (.setRxFlowcontrolTimeout v) :=
  ofHost (fun _ => rfl) rfl

theorem setRxConsecutiveFrameTimeout (v : ParamValue) : Statement (.setRxConsecutiveFrameTimeout v) :=
  ofHost (fun _ => rfl) rfl

theorem setTxPadding (v : ParamValue) : Statement (.setTxPadding v) :=
  ofHost (fun _ => rfl) rfl

theorem setMaxWaitFrames (v : ParamValue) : Statement (.setMaxWaitFrames v) :=
  ofHost (fun _ => rfl) rfl

theorem setLlDataLength (v : ParamValue) : Statement (.setLlDataLength v) :=
  ofHost (fun _ => rfl) rfl

theorem createNormal11 (f : AddrFields) : Statement (.createNormal11 f) :=
  ofHost (fun _ => rfl) rfl

theorem createNormal29 (f : AddrFields) : Statement (.createNormal29 f) :=
  ofHost (fun _ => rfl) rfl

theorem createNormalFixed29 (f : AddrFields) : Statement (.createNormalFixed29 f) :=
  ofHost (fun _ => rfl) rfl

theorem createExtended11 (f : AddrFields) : Statement (.createExtended11 f) :=
  ofHost (fun _ => rfl) rfl

theorem createExtended29 (f : AddrFields) : Statement (.createExtended29 f) :=
  ofHost (fun _ => rfl) rfl

theorem createMixed11 (f : AddrFields) : Statement (.createMixed11 f) :=
  ofHost (fun _ => rfl) rfl

theorem createMixed29 (f : AddrFields) : Statement (.createMixed29 f) :=
  ofHost (fun _ => rfl) rfl

theorem sf (data : List Byte) : Statement (.sf data) :=
  ofPdu (fun _ => rfl) (mkByte_type _).1

theorem ff (length : FfLength) (data : List Byte) : Statement (.ff length data) :=
  ofPdu (fun _ => rfl) (mkByte_type _).2.1

theorem cf (sn : Nibble) (data : List Byte) : Statement (.cf sn data) :=
  ofPdu (fun _ => rfl) (mkByte_type _).2.2

theorem fcCts (bs : Byte) (stmin : StminCode) : Statement (.fcCts bs stmin) :=
  ofPdu (fun _ => rfl) ((fullMask _).trans fcBytes.1)

theorem fcWait (bs : Byte) (stmin : StminCode) : Statement (.fcWait bs stmin) :=
  ofPdu (fun _ => rfl) ((fullMask _).trans fcBytes.2.1)

theorem fcOvflw (bs : Byte) (stmin : StminCode) : Statement (.fcOvflw bs stmin) :=
  ofPdu (fun _ => rfl) ((fullMask _).trans fcBytes.2.2)

end Sys2Proof.Laws.OpcodeMatch
end

