-- ==== Sys2Proof/Laws/Receive.lean ====
section
/-! SUPPORT. Laws/Receive.lean: each receive-side effect case by case, and the frame of all of them (42_receive.md). -/

namespace Sys2Proof.Machine

theorem rxMalformed_idle {s : State} (h : s.rx.state = .idle) (d : List Byte) :
    rxMalformed d s = s.report (.malformedFrame d) := by simp [rxMalformed, h]

theorem rxMalformed_waitCf {s : State} (h : s.rx.state = .waitCf) (d : List Byte) :
    rxMalformed d s = rxToIdle (s.report (.malformedFrame d)) := by simp [rxMalformed, h]

theorem rxSf_idle {s : State} (h : s.rx.state = .idle) (d : List Byte) : rxSf d s = deliver d s := by simp [rxSf, h]

theorem rxSf_waitCf {s : State} (h : s.rx.state = .waitCf) (d : List Byte) :
    rxSf d s = deliver d (rxToIdle (s.report .receptionInterruptedBySingleFrame)) := by simp [rxSf, h]

theorem rxFf_idle {s : State} (h : s.rx.state = .idle) (len : FfLength) (d : List Byte) :
    rxFf len d s = rxFfIdle len d s := by simp [rxFf, h]

theorem rxFf_waitCf {s : State} (h : s.rx.state = .waitCf) (len : FfLength) (d : List Byte) :
    rxFf len d s = rxFfIdle len d (rxToIdle (s.report .receptionInterruptedByNewFirstFrame)) := by simp [rxFf, h]

/-- The First Frame always leaves the same registers, whatever was in progress (R191, R192). -/
theorem rxFf_rx (len : FfLength) (d : List Byte) (s : State) :
    (rxFf len d s).rx = ⟨.waitCf, d, len, 0, 0, .armed s.now⟩ := by
  cases h : s.rx.state
  · rw [rxFf_idle h]; rfl
  · rw [rxFf_waitCf h]; rfl

theorem rxCf_idle {s : State} (h : s.rx.state = .idle) (n : Nibble) (d : List Byte) :
    rxCf n d s = s.report (.unexpectedConsecutiveFrame n) := by simp [rxCf, h]

theorem rxCf_expected {s : State} (h : s.rx.state = .waitCf) {n : Nibble} (hn : n = s.rx.lastSeq + 1) (d : List Byte) :
    rxCf n d s = rxCfAccept n d s := by simp [rxCf, h, hn]

theorem rxCf_wrong {s : State} (h : s.rx.state = .waitCf) {n : Nibble} (hn : n ≠ s.rx.lastSeq + 1) (d : List Byte) :
    rxCf n d s = rxCfWrong (s.rx.lastSeq + 1) n s := by
  unfold rxCf; rw [h]; exact if_neg hn

theorem rxFc_idle {s : State} (h : s.rx.state = .idle) (fc : FlowControl) : rxFc fc s = { s with fcSlot := some fc } := by
  simp [rxFc, h]

theorem rxFc_waitCf {s : State} (h : s.rx.state = .waitCf) (fc : FlowControl) :
    rxFc fc s = armRxCf { s with fcSlot := some fc } := by simp [rxFc, h]

/-- The accepted chunk never overfills the declared length (R201). -/
theorem rxAppended_length_le {rx : RxRegs} (h : rx.buf.length ≤ rx.len.toNat) (d : List Byte) :
    (rxAppended rx d).length ≤ rx.len.toNat := by
  simp [rxAppended]; omega

/-- The registers after an accepted Consecutive Frame, before completion and block counting (R196). -/
def rxAccepted (n : Nibble) (d : List Byte) (s : State) : State :=
  { s with rx := { s.rx with lastSeq := n, cfTimer := .armed s.now, buf := rxAppended s.rx d } }

theorem rxCfAccept_complete {s : State} {n : Nibble} {d : List Byte} (h : s.rx.len.toNat ≤ (rxAppended s.rx d).length) :
    rxCfAccept n d s = rxToIdle (deliver (rxAppended s.rx d) (rxAccepted n d s)) := by
  simp only [rxCfAccept, h, if_true]; rfl

theorem rxCfAccept_more {s : State} {n : Nibble} {d : List Byte} (h : (rxAppended s.rx d).length < s.rx.len.toNat) :
    rxCfAccept n d s = rxBlockStep (rxAccepted n d s) := by
  simp only [rxCfAccept]; rw [if_neg (by simp; omega)]; rfl

theorem rxBlockStep_rxOnly (s : State) : RxOnly s (rxBlockStep s) := by
  unfold rxBlockStep; split
  · exact RxOnly.refl s
  · split <;> constructor <;> rfl

@[simp] theorem rxBlockStep_log (s : State) : (rxBlockStep s).log = s.log := by
  unfold rxBlockStep; split
  · rfl
  · split <;> rfl

@[simp] theorem rxBlockStep_rxQueue (s : State) : (rxBlockStep s).rxQueue = s.rxQueue := by
  unfold rxBlockStep; split
  · rfl
  · split <;> rfl

@[simp] theorem rxBlockStep_fcSlot (s : State) : (rxBlockStep s).fcSlot = s.fcSlot := by
  unfold rxBlockStep; split
  · rfl
  · split <;> rfl

/-- Block counting writes the counter and nothing else of the receive registers (R198). -/
theorem rxBlockStep_rx (s : State) : (rxBlockStep s).rx = { s.rx with blockCnt := (rxBlockStep s).rx.blockCnt } := by
  unfold rxBlockStep; split
  · rfl
  · split <;> rfl

theorem rxAccepted_rxOnly (n : Nibble) (d : List Byte) (s : State) : RxOnly s (rxAccepted n d s) := by constructor <;> rfl

theorem rxCfAccept_rxOnly (n : Nibble) (d : List Byte) (s : State) : RxOnly s (rxCfAccept n d s) := by
  by_cases h : s.rx.len.toNat ≤ (rxAppended s.rx d).length
  · rw [rxCfAccept_complete h]
    exact ((rxAccepted_rxOnly n d s).trans (deliver_rxOnly _ _)).trans (rxToIdle_rxOnly _)
  · rw [rxCfAccept_more (by omega)]
    exact (rxAccepted_rxOnly n d s).trans (rxBlockStep_rxOnly _)

theorem rxCfAccept_rxGain (n : Nibble) (d : List Byte) (s : State) : RxGain s (rxCfAccept n d s) := by
  by_cases h : s.rx.len.toNat ≤ (rxAppended s.rx d).length
  · rw [rxCfAccept_complete h]
    obtain ⟨hl, hq⟩ := deliver_rxGain (rxAppended s.rx d) (rxAccepted n d s)
    exact ⟨hl, hq⟩
  · rw [rxCfAccept_more (by omega)]
    exact ⟨⟨[], by simp [rxAccepted], rfl⟩, .inl (by simp [rxAccepted])⟩

/-- The frame of every receive-side effect (R202, R184). -/
theorem rxMalformed_frame (d : List Byte) (s : State) : RxOnly s (rxMalformed d s) ∧ RxGain s (rxMalformed d s) := by
  cases h : s.rx.state
  · rw [rxMalformed_idle h]; exact ⟨report_rxOnly _ _, report_rxGain _ _⟩
  · rw [rxMalformed_waitCf h]
    exact ⟨(report_rxOnly _ _).trans (rxToIdle_rxOnly _), ⟨⟨_, rfl, rfl⟩, .inl rfl⟩⟩

theorem rxSf_frame (d : List Byte) (s : State) : RxOnly s (rxSf d s) ∧ RxGain s (rxSf d s) := by
  cases h : s.rx.state
  · rw [rxSf_idle h]; exact ⟨deliver_rxOnly _ _, deliver_rxGain _ _⟩
  · rw [rxSf_waitCf h]
    exact ⟨((report_rxOnly _ _).trans (rxToIdle_rxOnly _)).trans (deliver_rxOnly _ _),
      (deliver_rxGain _ _).after ⟨_, rfl, rfl⟩ rfl⟩

theorem rxFf_frame (len : FfLength) (d : List Byte) (s : State) : RxOnly s (rxFf len d s) ∧ RxGain s (rxFf len d s) := by
  cases h : s.rx.state
  · rw [rxFf_idle h]; exact ⟨by constructor <;> rfl, ⟨⟨[], by simp [rxFfIdle], rfl⟩, .inl rfl⟩⟩
  · rw [rxFf_waitCf h]; exact ⟨by constructor <;> rfl, ⟨⟨_, rfl, rfl⟩, .inl rfl⟩⟩

theorem rxCf_frame (n : Nibble) (d : List Byte) (s : State) : RxOnly s (rxCf n d s) ∧ RxGain s (rxCf n d s) := by
  cases h : s.rx.state
  · rw [rxCf_idle h]; exact ⟨report_rxOnly _ _, report_rxGain _ _⟩
  · by_cases hn : n = s.rx.lastSeq + 1
    · rw [rxCf_expected h hn]; exact ⟨rxCfAccept_rxOnly n d s, rxCfAccept_rxGain n d s⟩
    · rw [rxCf_wrong h hn]; exact ⟨by constructor <;> rfl, ⟨⟨_, rfl, rfl⟩, .inl rfl⟩⟩

theorem rxFc_frame (fc : FlowControl) (s : State) : RxOnly s (rxFc fc s) ∧ RxGain s (rxFc fc s) := by
  cases h : s.rx.state
  · rw [rxFc_idle h]; exact ⟨by constructor <;> rfl, ⟨⟨[], by simp, rfl⟩, .inl rfl⟩⟩
  · rw [rxFc_waitCf h]; exact ⟨by constructor <;> rfl, ⟨⟨[], by simp, rfl⟩, .inl rfl⟩⟩

end Sys2Proof.Machine
end

