-- ==== Sys2Proof/Laws/Transmit.lean ====
section
/-! SUPPORT. Laws/Transmit.lean: each stage of a transmit micro-step case by case, and the frame of the whole (43_transmit.md). -/

namespace Sys2Proof.Machine

theorem sendOwnFc_txOnly (a : Addr) (s : State) : TxOnly s (sendOwnFc a s) := by constructor <;> rfl

theorem txFcWait_txOnly (s : State) : TxOnly s (txFcWait s) := by
  unfold txFcWait; split
  · constructor <;> rfl
  · split <;> constructor <;> rfl

theorem txCtsAccept_txOnly (fc : FlowControl) (s : State) : TxOnly s (txCtsAccept fc s) := by
  unfold txCtsAccept; dsimp only; split <;> constructor <;> rfl

theorem txFcCts_txOnly (fc : FlowControl) (s : State) : TxOnly s (txFcCts fc s) := by
  unfold txFcCts; split
  · exact TxOnly.refl s
  · exact txCtsAccept_txOnly fc s

theorem txHandleFc_txOnly (fc : FlowControl) (s : State) : TxOnly s (txHandleFc fc s) := by
  unfold txHandleFc; split
  · constructor <;> rfl
  · split
    · exact txFcCts_txOnly fc s
    · exact txFcWait_txOnly s
    · constructor <;> rfl

/-- Every outcome of the handshake for a Flow Control in the slot (R225 to R228, R236). -/
theorem txHandleFc_cases (fc : FlowControl) (s : State) :
    (s.tx.state = .idle ∧ txHandleFc fc s = s.report (.unexpectedFlowControl fc.status))
    ∨ (s.tx.state ≠ .idle ∧ fc.status = .cts ∧
        s.tx.fcTimer.expired s.now s.snap.rxFlowcontrolTimeout = true ∧ txHandleFc fc s = s)
    ∨ (s.tx.state ≠ .idle ∧ fc.status = .cts ∧
        s.tx.fcTimer.expired s.now s.snap.rxFlowcontrolTimeout = false ∧ txHandleFc fc s = txCtsAccept fc s)
    ∨ (s.tx.state ≠ .idle ∧ fc.status = .wait ∧ ∃ e, txHandleFc fc s = txToIdle (s.report e))
    ∨ (s.tx.state ≠ .idle ∧ fc.status = .wait ∧ s.tx.waitCnt < s.snap.maxWaitFrames ∧
        txHandleFc fc s = armTxFc { s with tx := { s.tx with waitCnt := s.tx.waitCnt + 1, state := .waitFc } })
    ∨ (s.tx.state ≠ .idle ∧ fc.status = .ovflw ∧ txHandleFc fc s = txToIdle (s.report .flowControlOverflow)) := by
  unfold txHandleFc
  split
  · exact .inl ⟨‹_›, rfl⟩
  · cases hf : fc.status
    · cases he : s.tx.fcTimer.expired s.now s.snap.rxFlowcontrolTimeout
      · exact .inr (.inr (.inl ⟨‹_›, rfl, rfl, by simp [txFcCts, he]⟩))
      · exact .inr (.inl ⟨‹_›, rfl, rfl, by simp [txFcCts, he]⟩)
    · unfold txFcWait
      by_cases h0 : s.snap.maxWaitFrames = 0
      · exact .inr (.inr (.inr (.inl ⟨‹_›, rfl, .unsupportedWaitFrame, by simp only [h0, if_true]⟩)))
      · by_cases h1 : s.snap.maxWaitFrames ≤ s.tx.waitCnt
        · exact .inr (.inr (.inr (.inl ⟨‹_›, rfl, .maximumWaitFramesReached, by simp only [h0, h1, if_true, if_false]⟩)))
        · exact .inr (.inr (.inr (.inr (.inl ⟨‹_›, rfl, by omega, by simp only [h0, h1, if_false]⟩))))
    · exact .inr (.inr (.inr (.inr (.inr ⟨‹_›, rfl, rfl⟩))))

@[simp] theorem txHandleFc_txQueue (fc : FlowControl) (s : State) : (txHandleFc fc s).txQueue = s.txQueue := by
  obtain ⟨-, h⟩ | ⟨-, -, -, h⟩ | ⟨-, -, -, h⟩ | ⟨-, -, e, h⟩ | ⟨-, -, -, h⟩ | ⟨-, -, h⟩ := txHandleFc_cases fc s
  all_goals rw [h]
  all_goals first | rfl | (unfold txCtsAccept; dsimp only; split <;> rfl)

@[simp] theorem txHandleFc_fcRequest (fc : FlowControl) (s : State) : (txHandleFc fc s).fcRequest = s.fcRequest := by
  obtain ⟨-, h⟩ | ⟨-, -, -, h⟩ | ⟨-, -, -, h⟩ | ⟨-, -, e, h⟩ | ⟨-, -, -, h⟩ | ⟨-, -, h⟩ := txHandleFc_cases fc s
  all_goals rw [h]
  all_goals first | rfl | (unfold txCtsAccept; dsimp only; split <;> rfl)

@[simp] theorem txHandleFc_fcSlot (fc : FlowControl) (s : State) : (txHandleFc fc s).fcSlot = s.fcSlot := by
  obtain ⟨-, h⟩ | ⟨-, -, -, h⟩ | ⟨-, -, -, h⟩ | ⟨-, -, e, h⟩ | ⟨-, -, -, h⟩ | ⟨-, -, h⟩ := txHandleFc_cases fc s
  all_goals rw [h]
  all_goals first | rfl | (unfold txCtsAccept; dsimp only; split <;> rfl)

/-- What a stage of the micro-step adds to the log: events of which none is a delivery. -/
def TxLog (s t : State) : Prop := ∃ es, t.log = s.log ++ es ∧ deliveriesOf es = []

theorem TxLog.refl (s : State) : TxLog s s := ⟨[], by simp, rfl⟩

theorem TxLog.trans {s t u : State} (h : TxLog s t) (k : TxLog t u) : TxLog s u := by
  obtain ⟨es, h1, h2⟩ := h
  obtain ⟨es', k1, k2⟩ := k
  exact ⟨es ++ es', by rw [k1, h1, List.append_assoc], by simp [h2, k2]⟩

theorem txHandleFc_txLog (fc : FlowControl) (s : State) : TxLog s (txHandleFc fc s) := by
  obtain ⟨-, h⟩ | ⟨-, -, -, h⟩ | ⟨-, -, -, h⟩ | ⟨-, -, e, h⟩ | ⟨-, -, -, h⟩ | ⟨-, -, h⟩ := txHandleFc_cases fc s
  all_goals rw [h]
  all_goals first
    | exact ⟨_, rfl, rfl⟩
    | exact ⟨[], by unfold txCtsAccept; dsimp only; split <;> simp, rfl⟩
    | exact ⟨[], by simp, rfl⟩

theorem txConsumeSlot_none {s : State} (h : s.fcSlot = none) : txConsumeSlot s = s := by simp [txConsumeSlot, h]

theorem txConsumeSlot_some {s : State} {fc : FlowControl} (h : s.fcSlot = some fc) :
    txConsumeSlot s = txHandleFc fc { s with fcSlot := none } := by simp [txConsumeSlot, h]

@[simp] theorem txConsumeSlot_fcSlot (s : State) : (txConsumeSlot s).fcSlot = none := by
  cases h : s.fcSlot with
  | none => rw [txConsumeSlot_none h, h]
  | some fc => rw [txConsumeSlot_some h, txHandleFc_fcSlot]

@[simp] theorem txConsumeSlot_txQueue (s : State) : (txConsumeSlot s).txQueue = s.txQueue := by
  cases h : s.fcSlot with
  | none => rw [txConsumeSlot_none h]
  | some fc => rw [txConsumeSlot_some h, txHandleFc_txQueue]

@[simp] theorem txConsumeSlot_fcRequest (s : State) : (txConsumeSlot s).fcRequest = s.fcRequest := by
  cases h : s.fcSlot with
  | none => rw [txConsumeSlot_none h]
  | some fc => rw [txConsumeSlot_some h, txHandleFc_fcRequest]

theorem txConsumeSlot_frame (s : State) : TxOnly s (txConsumeSlot s) ∧ TxLog s (txConsumeSlot s) := by
  cases h : s.fcSlot with
  | none => rw [txConsumeSlot_none h]; exact ⟨TxOnly.refl s, TxLog.refl s⟩
  | some fc =>
    rw [txConsumeSlot_some h]
    have h0 : TxOnly s { s with fcSlot := none } := by constructor <;> rfl
    exact ⟨h0.trans (txHandleFc_txOnly _ _), txHandleFc_txLog fc { s with fcSlot := none }⟩

/-- Both outcomes of the flow-control timeout check (R229). -/
theorem txTimeoutCheck_cases (s : State) :
    (s.tx.fcTimer.expired s.now s.snap.rxFlowcontrolTimeout = false ∧ txTimeoutCheck s = s)
    ∨ (s.tx.fcTimer.expired s.now s.snap.rxFlowcontrolTimeout = true ∧
        txTimeoutCheck s = txToIdle (s.report .flowControlTimeout)) := by
  cases h : s.tx.fcTimer.expired s.now s.snap.rxFlowcontrolTimeout <;> simp [txTimeoutCheck, h]

@[simp] theorem txTimeoutCheck_fcSlot (s : State) : (txTimeoutCheck s).fcSlot = s.fcSlot := by
  obtain ⟨-, h⟩ | ⟨-, h⟩ := txTimeoutCheck_cases s <;> simp [h]

@[simp] theorem txTimeoutCheck_fcRequest (s : State) : (txTimeoutCheck s).fcRequest = s.fcRequest := by
  obtain ⟨-, h⟩ | ⟨-, h⟩ := txTimeoutCheck_cases s <;> simp [h]

@[simp] theorem txTimeoutCheck_txQueue (s : State) : (txTimeoutCheck s).txQueue = s.txQueue := by
  obtain ⟨-, h⟩ | ⟨-, h⟩ := txTimeoutCheck_cases s <;> simp [h]

theorem txTimeoutCheck_frame (s : State) : TxOnly s (txTimeoutCheck s) ∧ TxLog s (txTimeoutCheck s) := by
  obtain ⟨-, h⟩ | ⟨-, h⟩ := txTimeoutCheck_cases s <;> rw [h]
  · exact ⟨TxOnly.refl s, TxLog.refl s⟩
  · exact ⟨by constructor <;> rfl, ⟨_, rfl, rfl⟩⟩

/-- After the timeout check the timer is not expired: it was not, or it is disarmed (R229). -/
theorem txTimeoutCheck_notExpired (s : State) :
    (txTimeoutCheck s).tx.fcTimer.expired (txTimeoutCheck s).now (txTimeoutCheck s).snap.rxFlowcontrolTimeout = false := by
  obtain ⟨h, e⟩ | ⟨-, e⟩ := txTimeoutCheck_cases s <;> rw [e]
  · exact h
  · rfl

/-- The timeout check changes nothing where the timer has not expired. -/
theorem txTimeoutCheck_id {s : State} (h : s.tx.fcTimer.expired s.now s.snap.rxFlowcontrolTimeout = false) :
    txTimeoutCheck s = s := by simp [txTimeoutCheck, h]

/-- Every outcome of starting a message (R230 to R232). -/
theorem txStart_cases (a : Addr) (msg : TxMessage) (s : State) :
    (frameKind s.snap.llDataLength a.pfx.length msg.payload.length = .single ∧
      txStart a msg s = s.emit (makeFrame a s.snap (a.txId msg.target) (encodeSf a.pfx msg.payload)))
    ∨ (frameKind s.snap.llDataLength a.pfx.length msg.payload.length = .multi ∧ msg.target = .physical ∧
        txStart a msg s = txFirstFrame a msg.payload s)
    ∨ (((frameKind s.snap.llDataLength a.pfx.length msg.payload.length = .multi ∧ msg.target = .functional) ∨
        frameKind s.snap.llDataLength a.pfx.length msg.payload.length = .untransmittable) ∧
        txStart a msg s = s.report (.untransmittableMessage msg.payload.length)) := by
  unfold txStart
  cases hk : frameKind s.snap.llDataLength a.pfx.length msg.payload.length
  · exact .inl ⟨rfl, rfl⟩
  · cases ht : msg.target
    · exact .inr (.inl ⟨rfl, rfl, rfl⟩)
    · exact .inr (.inr ⟨.inl ⟨rfl, rfl⟩, rfl⟩)
  · exact .inr (.inr ⟨.inr rfl, rfl⟩)

/-- What a message needs to be sent as several frames (R173). -/
theorem frameKind_multi {ll p len : Nat} (h : frameKind ll p len = .multi) :
    1 ≤ capCf ll p ∧ 0 ≤ capFf ll p ∧ capFf ll p < len := by
  unfold frameKind at h
  split at h
  · cases h
  · split at h
    · assumption
    · cases h

theorem frameKind_single {ll p len : Nat} (h : frameKind ll p len = .single) : (len : Int) ≤ capSf ll p := by
  unfold frameKind at h
  split at h
  · assumption
  · split at h <;> cases h

/-- The transmit registers after a First Frame (R231). -/
theorem txFirstFrame_tx (a : Addr) (m : List Byte) (s : State) :
    (txFirstFrame a m s).tx = { s.tx with
      buf := m.drop (capFf s.snap.llDataLength a.pfx.length).toNat, seq := 1, blockCnt := 0, waitCnt := 0
      state := .waitFc, fcTimer := .armed s.now } := rfl

theorem txStart_frame (a : Addr) (msg : TxMessage) (s : State) :
    TxOnly s (txStart a msg s) ∧ TxLog s (txStart a msg s) ∧ (txStart a msg s).fcRequest = s.fcRequest
      ∧ (txStart a msg s).fcSlot = s.fcSlot ∧ (txStart a msg s).txQueue = s.txQueue := by
  obtain ⟨-, h⟩ | ⟨-, -, h⟩ | ⟨-, h⟩ := txStart_cases a msg s <;> rw [h]
  all_goals exact ⟨by constructor <;> rfl, ⟨_, rfl, rfl⟩, rfl, rfl, rfl⟩

theorem txBlockEnd_cases (s : State) :
    (s.tx.peerBs ≠ 0 ∧ s.tx.peerBs.toNat ≤ s.tx.blockCnt ∧
      txBlockEnd s = armTxFc { s with tx := { s.tx with state := .waitFc } })
    ∨ (¬ (s.tx.peerBs ≠ 0 ∧ s.tx.peerBs.toNat ≤ s.tx.blockCnt) ∧ txBlockEnd s = s) := by
  unfold txBlockEnd; split
  · exact .inl ⟨‹_ ∧ _›.1, ‹_ ∧ _›.2, rfl⟩
  · exact .inr ⟨‹_›, rfl⟩

/-- The state right after a Consecutive Frame with `cap` bytes was emitted (R234). -/
def txSent (a : Addr) (cap : Nat) (s : State) : State :=
  { s with
    tx := { s.tx with
      buf := s.tx.buf.drop cap, seq := s.tx.seq + 1, blockCnt := s.tx.blockCnt + 1, stminTimer := .armed s.now }
    log := s.log ++ [.emit (makeFrame a s.snap a.txPhys (encodeCf a.pfx s.tx.seq (s.tx.buf.take cap)))] }

/-- Every outcome of sending a Consecutive Frame (R233 to R235). -/
theorem txSendCf_cases (a : Addr) (s : State) :
    (capCf s.snap.llDataLength a.pfx.length < 1 ∧
      txSendCf a s = txToIdle (s.report (.untransmittableMessage s.tx.buf.length)))
    ∨ (1 ≤ capCf s.snap.llDataLength a.pfx.length ∧
        s.tx.buf.drop (capCf s.snap.llDataLength a.pfx.length).toNat = [] ∧
        txSendCf a s = txToIdle (txSent a (capCf s.snap.llDataLength a.pfx.length).toNat s))
    ∨ (1 ≤ capCf s.snap.llDataLength a.pfx.length ∧
        s.tx.buf.drop (capCf s.snap.llDataLength a.pfx.length).toNat ≠ [] ∧
        txSendCf a s = txBlockEnd (txSent a (capCf s.snap.llDataLength a.pfx.length).toNat s)) := by
  unfold txSendCf
  by_cases h : capCf s.snap.llDataLength a.pfx.length < 1
  · exact .inl ⟨h, by rw [if_pos h]⟩
  · rw [if_neg h]
    by_cases hb : s.tx.buf.drop (capCf s.snap.llDataLength a.pfx.length).toNat = []
    · refine .inr (.inl ⟨by omega, hb, ?_⟩)
      dsimp only
      rw [if_pos (by simpa using hb)]
      rfl
    · refine .inr (.inr ⟨by omega, hb, ?_⟩)
      dsimp only
      rw [if_neg (by simpa using hb)]
      rfl

theorem txSendCf_frame (a : Addr) (s : State) :
    TxOnly s (txSendCf a s) ∧ TxLog s (txSendCf a s) ∧ (txSendCf a s).fcRequest = s.fcRequest
      ∧ (txSendCf a s).fcSlot = s.fcSlot ∧ (txSendCf a s).txQueue = s.txQueue := by
  obtain ⟨-, h⟩ | ⟨-, -, h⟩ | ⟨-, -, h⟩ := txSendCf_cases a s
  · rw [h]; exact ⟨by constructor <;> rfl, ⟨_, rfl, rfl⟩, rfl, rfl, rfl⟩
  · rw [h]; exact ⟨by constructor <;> rfl, ⟨_, rfl, rfl⟩, rfl, rfl, rfl⟩
  · obtain ⟨-, -, h'⟩ | ⟨-, h'⟩ := txBlockEnd_cases (txSent a (capCf s.snap.llDataLength a.pfx.length).toNat s)
    all_goals rw [h, h']; exact ⟨by constructor <;> rfl, ⟨_, rfl, rfl⟩, rfl, rfl, rfl⟩

/-- Every outcome of the state machine's case of a micro-step (R223). -/
theorem txAdvance_cases (a : Addr) (s : State) :
    (∃ msg rest, s.tx.state = .idle ∧ s.txQueue = msg :: rest ∧
      txAdvance a s = (txStart a msg { s with txQueue := rest }, true))
    ∨ (s.tx.state = .txCf ∧ txCfDue s = true ∧ txAdvance a s = (txSendCf a s, true))
    ∨ (((s.tx.state = .idle ∧ s.txQueue = []) ∨ s.tx.state = .waitFc ∨ (s.tx.state = .txCf ∧ txCfDue s = false)) ∧
        txAdvance a s = (s, false)) := by
  unfold txAdvance
  cases hs : s.tx.state
  · cases hq : s.txQueue with
    | nil => exact .inr (.inr ⟨.inl ⟨rfl, rfl⟩, rfl⟩)
    | cons msg rest => exact .inl ⟨msg, rest, rfl, rfl, rfl⟩
  · exact .inr (.inr ⟨.inr (.inl rfl), rfl⟩)
  · cases hd : txCfDue s
    · exact .inr (.inr ⟨.inr (.inr ⟨rfl, rfl⟩), by simp⟩)
    · exact .inr (.inl ⟨rfl, rfl, by simp⟩)

theorem txStep_request {a : Addr} {s : State} (h : s.fcRequest = true) : txStep a s = (sendOwnFc a s, true) := by
  simp [txStep, h]

theorem txStep_other {a : Addr} {s : State} (h : s.fcRequest = false) :
    txStep a s = txAdvance a (txTimeoutCheck (txConsumeSlot s)) := by simp [txStep, h]

/-- The handshake of a micro-step comes before its state machine and leaves nothing for a second one (R223): the micro-step is that of
the state after the slot and the timeout. -/
theorem txStep_handshake {a : Addr} {s : State} (h : s.fcRequest = false) :
    txStep a s = txStep a (txTimeoutCheck (txConsumeSlot s)) := by
  have hs : (txTimeoutCheck (txConsumeSlot s)).fcSlot = none := by simp
  rw [txStep_other h, txStep_other (by simp [h]), txConsumeSlot_none hs, txTimeoutCheck_id (txTimeoutCheck_notExpired _)]

/-- The frame of the state machine's case. -/
theorem txAdvance_frame (a : Addr) (s : State) :
    TxOnly s (txAdvance a s).1 ∧ TxLog s (txAdvance a s).1 ∧ (txAdvance a s).1.fcRequest = s.fcRequest
      ∧ (txAdvance a s).1.fcSlot = s.fcSlot
      ∧ ((txAdvance a s).1.txQueue = s.txQueue ∨ ∃ m, s.txQueue = m :: (txAdvance a s).1.txQueue) := by
  obtain ⟨msg, rest, -, hq, h⟩ | ⟨-, -, h⟩ | ⟨-, h⟩ := txAdvance_cases a s <;> rw [h]
  · obtain ⟨h1, h2, h3, h4, h5⟩ := txStart_frame a msg { s with txQueue := rest }
    have h0 : TxOnly s { s with txQueue := rest } := by constructor <;> rfl
    exact ⟨h0.trans h1, h2, h3, h4, .inr ⟨msg, by rw [h5]; exact hq⟩⟩
  · obtain ⟨h1, h2, h3, h4, h5⟩ := txSendCf_frame a s
    exact ⟨h1, h2, h3, h4, .inl h5⟩
  · exact ⟨TxOnly.refl s, TxLog.refl s, rfl, rfl, .inl rfl⟩

end Sys2Proof.Machine
end

