-- ==== Sys2Proof/Laws/Step.lean ====
section
/-! SUPPORT. Laws/Step.lean: what one step can do, said once: every invariant over steps follows from `step_cases`. -/

namespace Sys2Proof.Machine

/-- The host's command words never decode to a PDU (R14, R101). -/
theorem withOperands_ok {α : Type} {op : Byte} {o : Option α} {mk : α → Instr} {i : Instr}
    (h : withOperands op o mk = .ok i) : ∃ x, o = some x ∧ i = mk x := by
  cases o with
  | none => cases h
  | some x => cases h; exact ⟨x, rfl, rfl⟩

theorem decodeHost_isPdu {w : List Tok} {i : Instr} (h : decodeHost w = .ok i) : i.isPdu = false := by
  unfold decodeHost at h
  split at h
  · unfold decodeOpcode at h
    split at h
    all_goals first
      | (obtain ⟨x, -, rfl⟩ := withOperands_ok h; rfl)
      | cases h
  · cases h
  · cases h
  · cases h

theorem decodePdu_isPdu {data : List Byte} {p maxLen : Nat} {i : Instr} (h : decodePdu data p maxLen = .ok i) :
    i.isPdu = true := by
  obtain ⟨b0, body, -, ⟨d, rfl, -⟩ | ⟨len, d, rfl, -⟩ | ⟨sn, rfl⟩ | ⟨status, bs, st, rfl⟩⟩ := decodePdu_ok h
  · rfl
  · rfl
  · rfl
  · cases status <;> rfl

/-- `t` differs from `s` only in the inputs and in whose command is executed: what the fetch itself may write. -/
structure InputsOnly (s t : State) : Prop where
  cfg : t.cfg = s.cfg
  addr : t.addr = s.addr
  params : t.params = s.params
  rx : t.rx = s.rx
  tx : t.tx = s.tx
  fcRequest : t.fcRequest = s.fcRequest
  fcSlot : t.fcSlot = s.fcSlot
  txQueue : t.txQueue = s.txQueue
  rxQueue : t.rxQueue = s.rxQueue
  phase : t.phase = s.phase
  now : t.now = s.now
  snap : t.snap = s.snap
  log : t.log = s.log
  results : t.results = s.results

theorem InputsOnly.refl (s : State) : InputsOnly s s := by constructor <;> rfl

theorem InputsOnly.trans {s t u : State} (h : InputsOnly s t) (k : InputsOnly t u) : InputsOnly s u := by
  constructor
  all_goals first
    | exact k.cfg.trans h.cfg | exact k.addr.trans h.addr | exact k.params.trans h.params | exact k.rx.trans h.rx
    | exact k.tx.trans h.tx | exact k.fcRequest.trans h.fcRequest | exact k.fcSlot.trans h.fcSlot
    | exact k.txQueue.trans h.txQueue | exact k.rxQueue.trans h.rxQueue | exact k.phase.trans h.phase
    | exact k.now.trans h.now | exact k.snap.trans h.snap | exact k.log.trans h.log | exact k.results.trans h.results

/-- What a step does beside running an instruction. -/
inductive OwnStep (s t : State) : Prop where
  /-- Nothing but inputs and answers: a line without effect, a reserved opcode, a frame for another session, no line at all. -/
  | quiet (s' : State) (inputs : InputsOnly s s') (eq : t = s' ∨ ∃ st, t = s'.answer st)
  /-- The end of the drain (R184). -/
  | drained (s' : State) (inputs : InputsOnly s s') (phase : s.phase = .drain) (addr : s.addr.isSome = true)
      (eq : t = { s' with phase := .transmit })
  /-- A malformed frame (R187). -/
  | malformed (s' : State) (inputs : InputsOnly s s') (phase : s.phase = .drain) (data : List Byte)
      (eq : t = rxMalformed data s')
  /-- A round of the transmit phase (R220). -/
  | round (s' : State) (inputs : InputsOnly s s') (phase : s.phase = .transmit) (a : Addr) (addr : s.addr = some a)
      (eq : t = txRound a s')

/-- What the fetch found: an instruction of one of the two streams, or a step of the block's own. -/
inductive FetchedOk (s : State) : Fetched → Prop where
  | command (i : Instr) (s' : State) (inputs : InputsOnly s s') (word : List Tok) (decoded : decodeHost word = .ok i) :
      FetchedOk s (.run i s')
  | pdu (i : Instr) (s' : State) (inputs : InputsOnly s s') (phase : s.phase = .drain) (a : Addr) (addr : s.addr = some a)
      (data : List Byte) (decoded : decodePdu data a.pfx.length s.snap.llDataLength = .ok i) : FetchedOk s (.run i s')
  | own (t : State) (did : OwnStep s t) : FetchedOk s (.done (.next t))
  | stop (r : Refusal) : FetchedOk s (.done (.refused r))

theorem fetchCommand_ok {who : Agent} {w : List Tok} {s s1 : State} (h : InputsOnly s s1) :
    FetchedOk s (fetchCommand who w s1) := by
  obtain ⟨h1, h2, h3, h4, h5, h6, h7, h8, h9, h10, h11, h12, h13, h14⟩ := h
  have hi : InputsOnly s { s1 with caller := who } := ⟨h1, h2, h3, h4, h5, h6, h7, h8, h9, h10, h11, h12, h13, h14⟩
  unfold fetchCommand
  split
  · exact .command _ _ hi w ‹_›
  · exact .own _ (.quiet _ hi (.inr ⟨_, rfl⟩))
  · exact .stop _
  · exact .stop _
  · exact .stop _

theorem fetchLine_ok {s s1 : State} (h : InputsOnly s s1) : FetchedOk s (fetchLine s1) := by
  have h' := h
  obtain ⟨h1, h2, h3, h4, h5, h6, h7, h8, h9, h10, h11, h12, h13, h14⟩ := h'
  unfold fetchLine
  split
  · exact .own _ (.quiet _ h (.inl rfl))
  · exact fetchCommand_ok ⟨h1, h2, h3, h4, h5, h6, h7, h8, h9, h10, h11, h12, h13, h14⟩
  · refine .own _ (.quiet _ ?_ (.inl rfl))
    exact ⟨h1, h2, h3, h4, h5, h6, h7, h8, h9, h10, h11, h12, h13, h14⟩

theorem fetchFrame_ok {s s1 : State} {a : Addr} {f : Frame} (h : InputsOnly s s1) (hp : s.phase = .drain)
    (ha : s.addr = some a) : FetchedOk s (fetchFrame a f s1) := by
  unfold fetchFrame
  split
  · exact .stop _
  · split
    · exact .own _ (.quiet _ h (.inl rfl))
    · split
      · rename_i i hd
        rw [h.snap] at hd
        exact .pdu i _ h hp a ha f.data hd
      · exact .own _ (.malformed _ h hp f.data rfl)

theorem fetchDrain_ok {s s1 : State} {a : Addr} (h : InputsOnly s s1) (hp : s.phase = .drain)
    (ha : s.addr = some a) : FetchedOk s (fetchDrain a s1) := by
  have h' := h
  obtain ⟨h1, h2, h3, h4, h5, h6, h7, h8, h9, h10, h11, h12, h13, h14⟩ := h'
  unfold fetchDrain
  split
  · exact .own _ (.drained _ h hp (by simp [ha]) rfl)
  · exact fetchFrame_ok ⟨h1, h2, h3, h4, h5, h6, h7, h8, h9, h10, h11, h12, h13, h14⟩ hp ha

theorem fetchEngine_ok {s s1 : State} (h : InputsOnly s s1) : FetchedOk s (fetchEngine s1) := by
  unfold fetchEngine
  split
  · exact fetchLine_ok h
  · rename_i hp ha; exact fetchDrain_ok h (h.phase ▸ hp) (h.addr ▸ ha)
  · rename_i hp ha; exact .own _ (.round _ h (h.phase ▸ hp) _ (h.addr ▸ ha) rfl)
  · exact .stop _
  · exact .stop _

/-- Taking a thread's next command touches only that thread's list (R100). -/
theorem nextCommand_inputs {who : Agent} {w : List Tok} {s t : State} (h : s.nextCommand who = some (w, t)) :
    InputsOnly s t := by
  unfold State.nextCommand at h
  split at h <;> split at h <;> cases h <;> constructor <;> rfl

/-- Every outcome of the fetch. -/
theorem fetch_ok (s : State) : FetchedOk s (fetch s) := by
  unfold fetch
  split
  · exact fetchEngine_ok (InputsOnly.refl s)
  · rename_i who ts ht
    have h0 : InputsOnly s { s with turn := ts } := by constructor <;> rfl
    unfold fetchTurn
    split
    · exact fetchEngine_ok h0
    · split
      · rename_i w t hn
        exact fetchCommand_ok (h0.trans (nextCommand_inputs hn))
      · exact fetchEngine_ok h0

/-- The fetch of an engine step (R271): no other thread has the turn. -/
theorem fetch_engineMoves {s : State} (h : s.EngineMoves) (hp : s.phase ≠ .idle) :
    fetch s = fetchEngine { s with turn := s.turn.tail } := by
  have e : ∀ ts, s.turn = ts → s = { s with turn := ts } := by rintro ts rfl; rfl
  unfold fetch
  split
  · rename_i ht; rw [ht]; exact congrArg fetchEngine (e [] ht)
  · rename_i who ts ht
    rw [ht]
    exact if_pos ⟨hp, (h who (by rw [ht]; rfl)).symm⟩

/-- The fetch of a command word (R100, R323). -/
theorem fetch_issues {s t : State} {who : Agent} {w : List Tok} (h : s.Issues who w t) :
    fetch s = fetchCommand who w t := by
  obtain ⟨ht, hw, hl⟩ := h
  have hn : ¬ (s.phase ≠ .idle ∧ s.driver = who) := by tauto
  obtain ht | ⟨ht, hp, rfl⟩ := ht
  · obtain ⟨ts, ht⟩ : ∃ ts, s.turn = who :: ts := by
      cases hs : s.turn with
      | nil => simp [hs] at ht
      | cons x ts => simp [hs] at ht; exact ⟨ts, by rw [ht]⟩
    unfold fetch fetchTurn
    rw [ht]
    dsimp only
    rw [if_neg hn]
    cases who <;> obtain ⟨rest, hl, rfl⟩ := hl <;> simp [State.nextCommand, hl, ht, fetchCommand]
  · obtain ⟨rest, hl, rfl⟩ := hl
    simp [fetch, ht, fetchEngine, hp, fetchLine, hl, fetchCommand]

/-- What a step that answers a next state did: a host command, a received PDU, or a step of the block's own. -/
theorem step_cases {s t : State} (h : step s = .next t) :
    (∃ i s' w, fetch s = .run i s' ∧ InputsOnly s s' ∧ decodeHost w = .ok i ∧ (s.phase = .idle ∨ i.concurrent = true)
      ∧ exec i s' = .next t)
    ∨ (∃ i s' a d, fetch s = .run i s' ∧ InputsOnly s s' ∧ s.phase = .drain ∧ s.addr = some a
      ∧ decodePdu d a.pfx.length s.snap.llDataLength = .ok i ∧ exec i s' = .next t)
    ∨ OwnStep s t := by
  have hf := fetch_ok s
  unfold step at h
  split at h
  · rename_i i s' he
    rw [he] at hf
    cases hf with
    | command _ _ hi w hd =>
      refine .inl ⟨i, s', w, he, hi, hd, ?_, h⟩
      by_cases hc : i.concurrent = true
      · exact .inr hc
      · exact .inl (hi.phase ▸ exec_tick h (decodeHost_isPdu hd) (by simpa using hc))
    | pdu _ _ hi hp a ha d hd => exact .inr (.inl ⟨i, s', a, d, he, hi, hp, ha, hd, h⟩)
  · rename_i o he
    rw [he] at hf
    cases hf with
    | own t' hd => cases h; exact .inr (.inr hd)
    | stop r => cases h

/-- The frame of every received PDU (R202, R184). -/
theorem exec_pdu_frame {i : Instr} {s t : State} (hp : i.isPdu = true) (h : exec i s = .next t) :
    RxOnly s t ∧ RxGain s t := by
  cases i <;> simp only [Instr.isPdu] at hp <;> try cases hp
  · cases h; exact rxSf_frame _ _
  · cases h; exact rxFf_frame _ _ _
  · cases h; exact rxCf_frame _ _ _
  · cases h; exact rxFc_frame _ _
  · cases h; exact rxFc_frame _ _
  · cases h; exact rxFc_frame _ _

/-- What `SUBMIT` writes (R264): its answer and at most one message at the back of `tx_queue`. -/
theorem submit_frame {m : List Byte} {target : Target} {s t : State} (h : submit m target s = .next t) :
    ∃ r q, t = { s with txQueue := q, results := s.results ++ [r] } ∧ (q = s.txQueue ∨ q = s.txQueue ++ [⟨m, target⟩]) := by
  obtain ⟨-, -, -, -, rfl⟩ | ⟨st, rfl⟩ := submit_next h
  · exact ⟨_, _, rfl, .inr rfl⟩
  · exact ⟨_, _, rfl, .inl rfl⟩

/-- What `POLL` writes (R268): its answer, and at most the front of `rx_queue` goes. -/
theorem execPoll_frame {s t : State} (h : execPoll s = .next t) :
    ∃ r q, t = { s with rxQueue := q, results := s.results ++ [r] } ∧ (q = s.rxQueue ∨ ∃ m, s.rxQueue = m :: q) := by
  obtain ⟨m, rest, hq, rfl⟩ | ⟨st, v, rfl⟩ := execPoll_next h
  · exact ⟨_, _, rfl, .inr ⟨m, hq⟩⟩
  · exact ⟨_, _, rfl, .inl rfl⟩

/-- What the commands of R323 write: only the two queues and an answer. -/
theorem exec_concurrent_frame {i : Instr} {s t : State} (hc : i.concurrent = true) (h : exec i s = .next t) :
    t = { s with txQueue := t.txQueue, rxQueue := t.rxQueue, results := t.results }
    ∧ (t.txQueue = s.txQueue ∨ ∃ m, t.txQueue = s.txQueue ++ [m])
    ∧ (t.rxQueue = s.rxQueue ∨ ∃ m, s.rxQueue = m :: t.rxQueue) := by
  cases i <;> simp only [Instr.concurrent] at hc <;> try cases hc
  · obtain ⟨r, q, rfl, hq⟩ := submit_frame h
    exact ⟨rfl, hq.imp id fun e => ⟨_, e⟩, .inl rfl⟩
  · obtain ⟨r, q, rfl, hq⟩ := submit_frame h
    exact ⟨rfl, hq.imp id fun e => ⟨_, e⟩, .inl rfl⟩
  · obtain ⟨r, q, rfl, hq⟩ := execPoll_frame h
    exact ⟨rfl, .inl rfl, hq⟩
  · obtain ⟨st, v, rfl⟩ := execAvailable_next h
    exact ⟨rfl, .inl rfl, .inl rfl⟩

/-- Both outcomes of a round of the transmit phase (R220). -/
theorem txRound_cases (a : Addr) (s : State) :
    (∃ t, txStep a s = (t, true) ∧ txRound a s = t) ∨ (∃ t, txStep a s = (t, false) ∧ txRound a s = endTick t) := by
  unfold txRound
  rcases h : txStep a s with ⟨t, b⟩
  cases b
  · exact .inr ⟨t, rfl, rfl⟩
  · exact .inl ⟨t, rfl, rfl⟩

/-- The frame of a whole micro-step (R238). -/
theorem txStep_frame (a : Addr) (s : State) :
    TxOnly s (txStep a s).1 ∧ TxLog s (txStep a s).1
      ∧ ((txStep a s).1.txQueue = s.txQueue ∨ ∃ m, s.txQueue = m :: (txStep a s).1.txQueue) := by
  cases h : s.fcRequest
  · rw [txStep_other h]
    obtain ⟨h1, h2⟩ := txConsumeSlot_frame s
    obtain ⟨h3, h4⟩ := txTimeoutCheck_frame (txConsumeSlot s)
    obtain ⟨h5, h6, -, -, h7⟩ := txAdvance_frame a (txTimeoutCheck (txConsumeSlot s))
    rw [txTimeoutCheck_txQueue, txConsumeSlot_txQueue] at h7
    exact ⟨(h1.trans h3).trans h5, (h2.trans h4).trans h6, h7⟩
  · rw [txStep_request h]
    exact ⟨sendOwnFc_txOnly a s, ⟨_, rfl, rfl⟩, .inl rfl⟩

end Sys2Proof.Machine
end

