-- ==== Sys2Proof/Laws/Run.lean ====
section
/-! SUPPORT. Laws/Run.lean: several steps one after another, and the steps of the tick engine inside a run. -/

namespace Sys2Proof.Machine

theorem run_zero (s : State) : core.run 0 s = .next s := rfl

theorem run_succ_of (M : Host.Core) (k : Nat) (s t : M.State) (h : M.step s = .next t) : M.run (k + 1) s = M.run k t := by
  rw [Host.Core.run, h]

theorem run_refused_of (M : Host.Core) (k : Nat) (s : M.State) (r : M.Refusal) (h : M.step s = .refused r) :
    M.run (k + 1) s = .refused r := by
  rw [Host.Core.run, h]

/-- A run begins with a step. -/
theorem run_succ (k : Nat) {s t : State} (h : step s = .next t) : core.run (k + 1) s = core.run k t :=
  run_succ_of core k s t h

/-- A run that goes on where another ended. -/
theorem run_add (j : Nat) {k : Nat} {s t : State} (h : core.run k s = .next t) :
    core.run (k + j) s = core.run j t := by
  induction k generalizing s with
  | zero =>
    have e : s = t := by
      have h' := h.symm.trans (run_zero s)
      cases h'; rfl
    rw [e, Nat.zero_add]
  | succ k ih =>
    rw [Nat.add_right_comm]
    cases hs : step s with
    | next u =>
      rw [run_succ k hs] at h
      rw [run_succ _ hs]
      exact ih h
    | fault r => cases r
    | refused r =>
      have h' := h.symm.trans (run_refused_of core k s r hs)
      cases h'

/-- A step inside the transmit phase (R220). -/
theorem step_transmit {s : State} {a : Addr} (h : s.InTransmit a) : step s = .next (txRound a s) := by
  obtain ⟨h1, h2, h3⟩ := h
  simp only [step, fetch, h3, fetchEngine, h1, h2]

/-- The step that ends the drain (R184). -/
theorem step_drained {s : State} {a : Addr} (hp : s.phase = .drain) (ha : s.addr = some a) (ht : s.turn = [])
    (hr : s.rxPort = []) : step s = .next { s with phase := .transmit } := by
  simp only [step, fetch, ht, fetchEngine, hp, ha, fetchDrain, hr]

/-- A received PDU always answers a next state (R202). -/
theorem exec_pdu_next {i : Instr} (s : State) (h : i.isPdu = true) : ∃ t, exec i s = .next t := by
  cases i <;> simp only [Instr.isPdu] at h <;> try cases h
  all_goals exact ⟨_, rfl⟩

/-- A step that receives a frame (R185). -/
theorem step_receives {s : State} {a : Addr} {f : Frame} {rest : List Frame} (h : s.Receives a f rest) :
    step s = .next (rxFrame a { s with rxPort := rest } f) := by
  obtain ⟨hp, ha, ht, hr, hw⟩ := h
  simp only [step, fetch, ht, fetchEngine, hp, ha, fetchDrain, hr, fetchFrame, hw, Bool.true_eq_false, if_false, rxFrame]
  by_cases hm : isForMe a f = true
  · simp only [hm, Bool.true_eq_false, if_false, if_true]
    cases hd : decodePdu f.data a.pfx.length s.snap.llDataLength with
    | error r => rfl
    | ok i =>
      obtain ⟨t, e⟩ := exec_pdu_next { s with rxPort := rest } (decodePdu_isPdu hd)
      simp only [← hp, ← ha, ← ht, e]
  · rw [if_neg hm]
    simp [hm, ← hp, ← ha, ← ht]

/-- The frame of one received frame (R202). -/
theorem rxFrame_rxOnly (a : Addr) (s : State) (f : Frame) : RxOnly s (rxFrame a s f) := by
  unfold rxFrame
  split
  · split
    · exact (rxMalformed_frame _ _).1
    · rename_i i hd
      split
      · rename_i t he; exact (exec_pdu_frame (decodePdu_isPdu hd) he).1
      · exact RxOnly.refl s
      · exact RxOnly.refl s
  · exact RxOnly.refl s

end Sys2Proof.Machine
end

