-- ==== Sys2Proof/Tests/Slice0.lean ====
section
/-! SUPPORT. Tests/Slice0.lean: words written out from the spec's encodings, ill-formed terms for each check of WellFormed, one-step
tests with results from the spec's own worked examples (the rule or the vector of 95_test_vectors.md is named), and a concrete state for
the hypotheses of every statement that has some. -/

namespace Sys2Proof.Tests

open Sys2Proof Sys2Proof.Machine

/-- The outcome is a next state of which `p` holds. -/
def nextIs (o : Out) (p : State → Bool) : Bool :=
  match o with
  | .next t => p t
  | .fault _ => false
  | .refused _ => false

/-- The outcome is this refusal. -/
def refusedAs (o : Out) (r : Refusal) : Bool :=
  match o with
  | .next _ => false
  | .fault _ => false
  | .refused r' => decide (r' = r)

/-- What `nextIs` shows. -/
theorem nextIs_exists {o : Out} {p : State → Bool} (h : nextIs o p = true) : ∃ t, o = .next t ∧ p t = true := by
  cases o with
  | next t => exact ⟨t, rfl, h⟩
  | fault r => cases r
  | refused r => cases h

/-- OPEN parameters for the tests: both queues hold two messages, the timeouts are 1000 ms, the sleep values 1, 3 and 6. -/
def cfg : Config := ⟨1, 1, 0, 1, 2, 3, 0, 0, false, 1000, 1000, 0⟩

/-- `CREATE.Normal11 txid=456 rxid=123` (95_test_vectors.md W1). -/
def addr : Addr := configuredIds .normal11 false 0x456 0x123 [] none none none

/-- `CREATE.Extended11 txid=7E0 rxid=7E8 ta=10 sa=F1` (R127). -/
def addrExt : Addr := configuredIds .extended11 false 0x7E0 0x7E8 [0x10] (some 0x10) (some 0xF1) none

/-- No session. -/
def none0 : State := State.powerOn cfg

/-- A session between ticks. -/
def ses : State := { State.powerOn cfg with addr := some addr }

/-- A session inside the drain. -/
def drain : State := { ses with phase := .drain }

/-- A session inside the drain with these frames behind the receive port. -/
def receiving (fs : List Frame) : State := { drain with rxPort := fs }

/-- A session inside the transmit phase with these transmit registers. -/
def sending (t : TxRegs) : State := { ses with phase := .transmit, tx := t }

/-- A reassembly of 8 bytes with six received (R196). -/
def partialRx : RxRegs := ⟨.waitCf, [0xB0, 0xB1, 0xB2, 0xB3, 0xB4, 0xB5], 8, 0, 0, .armed 0⟩

/-- The same inside the drain. -/
def busy : State := { drain with rx := partialRx }

/-- A transmission waiting for a Flow Control, two bytes left (W2). -/
def waitingTx : TxRegs := ⟨.waitFc, [0xB6, 0xB7], 1, 0, 0, 0, 0, .armed 0, .disarmed⟩

/-- A transmission sending Consecutive Frames, ten bytes left. -/
def sendingTx : TxRegs :=
  ⟨.txCf, [0, 1, 2, 3, 4, 5, 6, 7, 8, 9], 1, 0, 0, 0, 0, .disarmed, .armed 0⟩

/-- The slot handed over in the transmit phase. -/
def handed (st : FlowStatus) (t : TxRegs) : State := { sending t with fcSlot := some ⟨st, 0, 0, 0⟩ }

/-- The same state under a changed snapshot. -/
def under (f : Params → Params) (s : State) : State := { s with snap := f s.snap }

/-- Both queues of the session full. -/
def full : State := { ses with txQueue := [⟨[1], .physical⟩, ⟨[2], .physical⟩], rxQueue := [[1], [2]] }

/-! ## Words written out from the encodings -/

/-- R101, R102: SUBMIT: opcode, two length bytes, the payload. -/
theorem test_decode_submit :
    decodeHost [.byte 0b00000001, .byte 0, .byte 2, .byte 0xAA, .byte 0xBB] = .ok (.submitPhys [0xAA, 0xBB])
    ∧ decodeHost [.byte 0b00000010, .byte 0, .byte 1, .byte 0xCC] = .ok (.submitFunc [0xCC]) := by decide

/-- R101: the opcodes 0x03 to 0x08. -/
theorem test_decode_plain :
    decodeHost [.byte 0b00000011] = .ok .poll ∧ decodeHost [.byte 0b00000100, .int 7] = .ok (.process 7)
    ∧ decodeHost [.byte 0b00000101] = .ok .reset ∧ decodeHost [.byte 0b00000110] = .ok .available
    ∧ decodeHost [.byte 0b00000111] = .ok .transmitting ∧ decodeHost [.byte 0b00001000] = .ok .idleSleep := by decide

/-- R104: SET_PARAM: 0x10 plus the selector. -/
theorem test_decode_setParam :
    decodeHost [.byte 0b00010000, .int 5] = .ok (.setStmin (some 5))
    ∧ decodeHost [.byte 0b00010001, .int 256] = .ok (.setBlocksize (some 256))
    ∧ decodeHost [.byte 0b00010010, .int 1] = .ok (.setSquashTiming (some 1))
    ∧ decodeHost [.byte 0b00010011, .int (-1)] = .ok (.setRxFlowcontrolTimeout (some (-1)))
    ∧ decodeHost [.byte 0b00010100, .int 0] = .ok (.setRxConsecutiveFrameTimeout (some 0))
    ∧ decodeHost [.byte 0b00010101, .absent] = .ok (.setTxPadding none)
    ∧ decodeHost [.byte 0b00010110, .int 2] = .ok (.setMaxWaitFrames (some 2))
    ∧ decodeHost [.byte 0b00010111, .int 64] = .ok (.setLlDataLength (some 64)) := by decide

/-- R106: CREATE: 0x20 plus the mode's index, then txid, rxid, ta, sa, ae. -/
theorem test_decode_create :
    decodeHost [.byte 0b00100000, .int 1, .int 2, .absent, .absent, .absent]
      = .ok (.createNormal11 ⟨some 1, some 2, none, none, none⟩)
    ∧ decodeHost [.byte 0b00100001, .int 1, .int 2, .absent, .absent, .absent]
      = .ok (.createNormal29 ⟨some 1, some 2, none, none, none⟩)
    ∧ decodeHost [.byte 0b00100010, .absent, .absent, .int 3, .int 4, .absent]
      = .ok (.createNormalFixed29 ⟨none, none, some 3, some 4, none⟩)
    ∧ decodeHost [.byte 0b00100011, .int 1, .int 2, .int 3, .int 4, .absent]
      = .ok (.createExtended11 ⟨some 1, some 2, some 3, some 4, none⟩)
    ∧ decodeHost [.byte 0b00100100, .int 1, .int 2, .int 3, .int 4, .absent]
      = .ok (.createExtended29 ⟨some 1, some 2, some 3, some 4, none⟩)
    ∧ decodeHost [.byte 0b00100101, .int 1, .int 2, .absent, .absent, .int 5]
      = .ok (.createMixed11 ⟨some 1, some 2, none, none, some 5⟩)
    ∧ decodeHost [.byte 0b00100110, .absent, .absent, .int 3, .int 4, .int 5]
      = .ok (.createMixed29 ⟨none, none, some 3, some 4, some 5⟩) := by decide

/-- R82 to R86: the six PDUs; the second row under a one-byte prefix. -/
theorem test_decode_pdu :
    decodePdu [0b00000011, 1, 2, 3, 0xCC] 0 8 = .ok (.sf [1, 2, 3])
    ∧ decodePdu [0xF1, 0b00000010, 0xAA, 0xBB] 1 8 = .ok (.sf [0xAA, 0xBB])
    ∧ decodePdu [0b00011111, 0b11111111, 9] 0 8 = .ok (.ff 4095 [9])
    ∧ decodePdu [0b00101111, 0xAA] 0 8 = .ok (.cf 15 [0xAA])
    ∧ decodePdu [0b00110000, 4, 0xF3] 0 8 = .ok (.fcCts 4 (.hundredUs 2))
    ∧ decodePdu [0b00110001, 0, 0x7F] 0 8 = .ok (.fcWait 0 (.ms 127))
    ∧ decodePdu [0b00110010, 0, 0, 0xAA] 0 8 = .ok (.fcOvflw 0 (.ms 0)) := by decide

/-- R97: one word for each row of the table of malformed encodings. -/
theorem test_decode_malformed :
    decodePdu [0xF1] 1 8 = .error (.malformed .noPci) ∧ decodePdu [0x40, 0] 0 8 = .error (.malformed .reservedType)
    ∧ decodePdu [0x00, 0] 0 8 = .error (.malformed .sfLengthZero)
    ∧ decodePdu [0x08, 1, 2, 3, 4, 5, 6, 7, 8] 0 8 = .error (.malformed .sfTooLong)
    ∧ decodePdu [0x03, 1, 2] 0 8 = .error (.malformed .sfShort) ∧ decodePdu [0x10] 0 8 = .error (.malformed .ffShort)
    ∧ decodePdu [0x30, 0] 0 8 = .error (.malformed .fcShort)
    ∧ decodePdu [0x33, 0, 0] 0 8 = .error (.malformed .fcReservedStatus)
    ∧ decodePdu [0x30, 0, 0x80] 0 8 = .error (.malformed .fcReservedStmin)
    ∧ decodePdu [0x30, 0, 0xFA] 0 8 = .error (.malformed .fcReservedStmin) := by decide

/-- R105 and the command terms that are no words. -/
theorem test_decode_host_rejects :
    decodeHost [.byte 0x00] = .error (.reservedOpcode 0x00) ∧ decodeHost [.byte 0x27] = .error (.reservedOpcode 0x27)
    ∧ decodeHost [] = .error .noOpcode ∧ decodeHost [.byte 0x03, .byte 0] = .error (.badOperands 0x03)
    ∧ decodeHost [.byte 0x04, .int (-1)] = .error (.badOperands 0x04)
    ∧ decodeHost [.byte 0x01, .byte 0, .byte 2, .byte 1] = .error (.badOperands 0x01) := by decide

/-- R160 to R163: the encoders' worked examples under a prefix. -/
theorem test_encode :
    encode [0x10] (.sf [1, 2]) = .pdu [0x10, 0x02, 1, 2] ∧ encode [] (.ff 0x123 [9]) = .pdu [0x11, 0x23, 9]
    ∧ encode [] (.cf 15 [7]) = .pdu [0x2F, 7] ∧ encode [0x99] (.fcCts 2 (.ms 0x14)) = .pdu [0x99, 0x30, 2, 0x14]
    ∧ encode [] (.setTxPadding none) = .host [.byte 0x15, .absent]
    ∧ encode [] (.submitPhys [5]) = .host [.byte 0x01, .byte 0, .byte 1, .byte 5] := by decide

/-- Words of the opcode table (log entry 3): the first byte in the low bits. -/
theorem test_decodeTableWord :
    decodeTableWord 8 0x04 = some (.process 0) ∧ decodeTableWord 16 0x2311 = some (.ff 0x123 (List.replicate 14 0))
    ∧ decodeTableWord 24 0x7F0530 = some (.fcCts 5 (.ms 0x7F)) ∧ decodeTableWord 8 0x0F = some (.sf (List.replicate 15 0))
    ∧ decodeTableWord 8 0x2A = some (.cf 10 (List.replicate 15 0)) ∧ decodeTableWord 8 0x00 = none := by decide

/-- The next step after placing a table word runs it: PROCESS without a session is illegal (R262), FF starts a reassembly (R191). -/
theorem test_withFetchWord :
    nextIs (step (none0.withFetchWord 8 0x04)) (fun t => decide (t.results = [⟨.first, .illegalCommand, .nothing⟩])) = true
    ∧ nextIs (step (none0.withFetchWord 16 0x0811)) (fun t => decide (t.rx.state = .waitCf ∧ t.rx.len = 0x108)) = true := by
  decide

/-! ## Ill-formed terms -/

theorem test_illFormed_payload (m : List Byte) (h : m.length = 65536) :
    wellFormed (.submitPhys m) = false ∧ wellFormed (.submitFunc m) = false := by
  simp [wellFormed, payloadFits, h]

theorem test_illFormed_pdu :
    wellFormed (.sf []) = false ∧ wellFormed (.sf (List.replicate 16 0)) = false ∧ wellFormed (.ff 1 [1, 2]) = false
    ∧ wellFormed (.ff 4095 (List.replicate 63 0)) = false ∧ wellFormed (.cf 0 (List.replicate 64 0)) = false := by decide

theorem test_wellFormed_limits :
    wellFormed (.sf (List.replicate 15 0)) = true ∧ wellFormed (.ff 4095 (List.replicate 62 0)) = true
    ∧ wellFormed (.ff 0 []) = true ∧ wellFormed (.cf 0 (List.replicate 63 0)) = true ∧ wellFormed (.cf 0 []) = true := by decide

/-! ## One step of every instruction -/

/-- R264's worked example: a 7-byte functional message is accepted, an 8-byte one is not, an empty one is too short. -/
theorem test_submitFunc :
    nextIs (exec (.submitFunc [1, 2, 3, 4, 5, 6, 7]) ses)
      (fun t => decide (t.txQueue = [⟨[1, 2, 3, 4, 5, 6, 7], .functional⟩])) = true
    ∧ nextIs (exec (.submitFunc [1, 2, 3, 4, 5, 6, 7, 8]) ses)
      (fun t => decide (t.txQueue = [] ∧ t.results = [⟨.first, .functionalMultiFrame, .nothing⟩])) = true := by decide

theorem test_submitPhys :
    nextIs (exec (.submitPhys []) ses) (fun t => decide (t.results = [⟨.first, .invalidLength, .nothing⟩])) = true
    ∧ nextIs (exec (.submitPhys [1]) full) (fun t => decide (t.results = [⟨.first, .queueFull, .nothing⟩])) = true
    ∧ nextIs (exec (.submitPhys [9]) ses) (fun t => decide (t.txQueue = [⟨[9], .physical⟩])) = true := by decide

/-- W1 steps 3 and 4 (R268). -/
theorem test_poll :
    nextIs (exec .poll { ses with rxQueue := [[1, 2, 3], [4]] })
      (fun t => decide (t.rxQueue = [[4]] ∧ t.results = [⟨.first, .ok, .message [1, 2, 3]⟩])) = true
    ∧ nextIs (exec .poll ses) (fun t => decide (t.results = [⟨.first, .ok, .noMessage⟩])) = true := by decide

/-- R180: 1000 − 0 > 1000 is false, 1001 − 0 > 1000 is true. -/
theorem test_process :
    nextIs (exec (.process 1000) { busy with phase := .idle })
      (fun t => decide (t.rx = partialRx ∧ t.phase = .drain ∧ t.now = 1000)) = true
    ∧ nextIs (exec (.process 1001) { busy with phase := .idle })
      (fun t => decide (t.rx = RxRegs.reset ∧ t.log = [.report .consecutiveFrameTimeout])) = true := by decide

/-- R280's worked example. -/
theorem test_reset :
    nextIs (exec .reset { full with tx := waitingTx, rx := partialRx })
      (fun t => decide (t.tx = TxRegs.reset ∧ t.rx = RxRegs.reset ∧ t.txQueue = [] ∧ t.rxQueue = [] ∧ t.addr = some addr))
      = true := by decide

/-- R283, R284, R286. -/
theorem test_outputs :
    nextIs (exec .available full) (fun t => decide (t.results = [⟨.first, .ok, .bool true⟩])) = true
    ∧ nextIs (exec .transmitting { ses with txQueue := [⟨[1], .physical⟩] })
      (fun t => decide (t.results = [⟨.first, .ok, .bool true⟩])) = true
    ∧ nextIs (exec .idleSleep { ses with tx := waitingTx }) (fun t => decide (t.results = [⟨.first, .ok, .ms 3⟩])) = true
    ∧ nextIs (exec .idleSleep ses) (fun t => decide (t.results = [⟨.first, .ok, .ms 6⟩])) = true := by decide

/-- R290's worked examples and one legal value for every field. -/
theorem test_setParam_legal :
    nextIs (exec (.setStmin (some 0x14)) ses) (fun t => decide (t.params.stmin = 0x14)) = true
    ∧ nextIs (exec (.setBlocksize (some 255)) ses) (fun t => decide (t.params.blocksize = 255)) = true
    ∧ nextIs (exec (.setSquashTiming (some 1)) ses) (fun t => decide (t.params.squashTiming = true)) = true
    ∧ nextIs (exec (.setRxFlowcontrolTimeout (some 7)) ses) (fun t => decide (t.params.rxFlowcontrolTimeout = 7)) = true
    ∧ nextIs (exec (.setRxConsecutiveFrameTimeout (some 8)) ses)
      (fun t => decide (t.params.rxConsecutiveFrameTimeout = 8)) = true
    ∧ nextIs (exec (.setTxPadding (some 0xAA)) none0) (fun t => decide (t.params.txPadding = some 0xAA)) = true
    ∧ nextIs (exec (.setMaxWaitFrames (some 2)) ses) (fun t => decide (t.params.maxWaitFrames = 2)) = true
    ∧ nextIs (exec (.setLlDataLength (some 0)) ses) (fun t => decide (t.params.llDataLength = 0)) = true := by decide

theorem test_setParam_illegal :
    nextIs (exec (.setBlocksize (some 256)) ses)
      (fun t => decide (t.params = ses.params ∧ t.results = [⟨.first, .configValidation, .nothing⟩])) = true
    ∧ nextIs (exec (.setStmin none) ses) (fun t => decide (t.results = [⟨.first, .configValidation, .nothing⟩])) = true
    ∧ nextIs (exec (.setSquashTiming (some 2)) ses) (fun t => decide (t.results = [⟨.first, .configValidation, .nothing⟩])) = true
    ∧ nextIs (exec (.setMaxWaitFrames (some (-1))) ses)
      (fun t => decide (t.results = [⟨.first, .configValidation, .nothing⟩])) = true := by decide

/-- R124, R125, R127, R128, R129: the worked examples of the modes with configured IDs. -/
theorem test_create_configured :
    nextIs (exec (.createNormal11 ⟨some 0x456, some 0x123, none, none, none⟩) none0) (fun t => decide (t.addr = some addr)) = true
    ∧ nextIs (exec (.createNormal29 ⟨some 0x1ABCDEF0, some 0x1ABCDEF1, none, none, none⟩) none0)
      (fun t => decide (t.addr.map (fun a => (a.is29, a.txFunc, a.rxPhys)) = some (true, 0x1ABCDEF0, 0x1ABCDEF1))) = true
    ∧ nextIs (exec (.createExtended11 ⟨some 0x7E0, some 0x7E8, some 0x10, some 0xF1, none⟩) none0)
      (fun t => decide (t.addr = some addrExt)) = true
    ∧ nextIs (exec (.createExtended29 ⟨some 0x18000010, some 0x18000020, some 0x10, some 0xF1, none⟩) none0)
      (fun t => decide (t.addr.map (fun a => (a.is29, a.pfx)) = some (true, [0x10]))) = true
    ∧ nextIs (exec (.createMixed11 ⟨some 0x600, some 0x601, none, none, some 0x99⟩) none0)
      (fun t => decide (t.addr.map (fun a => (a.rxFunc, a.pfx)) = some (0x601, [0x99]))) = true := by decide

/-- R126, R130: the worked examples of the pattern IDs. -/
theorem test_create_pattern :
    nextIs (exec (.createNormalFixed29 ⟨none, none, some 0x55, some 0xF1, none⟩) none0)
      (fun t => decide (t.addr.map (fun a => (a.txPhys, a.txFunc, a.rxPhys, a.rxFunc))
        = some (0x18DA55F1, 0x18DB55F1, 0x18DAF155, 0x18DBF155))) = true
    ∧ nextIs (exec (.createMixed29 ⟨none, none, some 0x55, some 0xF1, some 0x99⟩) none0)
      (fun t => decide (t.addr.map (fun a => (a.txPhys, a.txFunc, a.rxPhys, a.rxFunc))
        = some (0x18CE55F1, 0x18CD55F1, 0x18CEF155, 0x18CDF155))) = true := by decide

/-- R121, R260, R261: an ID out of range, a missing field, a second session. -/
theorem test_create_fails :
    nextIs (exec (.createNormal11 ⟨some 0x800, some 0x123, none, none, none⟩) none0)
      (fun t => decide (t.addr = none ∧ t.results = [⟨.first, .invalidAddressConfig, .nothing⟩])) = true
    ∧ nextIs (exec (.createExtended11 ⟨some 0x7E0, some 0x7E8, some 0x10, none, none⟩) none0)
      (fun t => decide (t.results = [⟨.first, .invalidAddressConfig, .nothing⟩])) = true
    ∧ nextIs (exec (.createNormal11 ⟨some 1, some 2, none, none, none⟩) ses)
      (fun t => decide (t.addr = some addr ∧ t.results = [⟨.first, .illegalCommand, .nothing⟩])) = true := by decide

/-- R188, R194, R212. -/
theorem test_sf :
    nextIs (exec (.sf [1, 2, 3]) drain) (fun t => decide (t.rxQueue = [[1, 2, 3]])) = true
    ∧ nextIs (exec (.sf [0xAA, 0xBB]) busy) (fun t => decide (t.rx = RxRegs.reset ∧ t.rxQueue = [[0xAA, 0xBB]]
        ∧ t.log = [.report .receptionInterruptedBySingleFrame, .deliver [0xAA, 0xBB]])) = true := by decide

/-- R191's worked example, and R192. -/
theorem test_ff :
    nextIs (exec (.ff 30 [0, 1, 2, 3, 4, 5]) drain)
      (fun t => decide (t.rx = ⟨.waitCf, [0, 1, 2, 3, 4, 5], 30, 0, 0, .armed 0⟩ ∧ t.fcRequest = true)) = true
    ∧ nextIs (exec (.ff 0 []) busy) (fun t => decide (t.rx.len = 0 ∧ t.rx.buf = []
        ∧ t.log = [.report .receptionInterruptedByNewFirstFrame])) = true := by decide

/-- R196's worked example, and R197's. -/
theorem test_cf :
    nextIs (exec (.cf 1 [0xB6, 0xB7, 0xCC, 0xCC, 0xCC, 0xCC, 0xCC]) busy)
      (fun t => decide (t.rxQueue = [[0xB0, 0xB1, 0xB2, 0xB3, 0xB4, 0xB5, 0xB6, 0xB7]] ∧ t.rx = RxRegs.reset)) = true
    ∧ nextIs (exec (.cf 2 [0]) busy) (fun t => decide (t.rx = RxRegs.reset ∧ t.log = [.report (.wrongSequenceNumber 1 2)]))
      = true := by decide

/-- R189: the slot is overwritten, and while receiving the timer restarts. -/
theorem test_fc :
    nextIs (exec (.fcCts 4 (.hundredUs 2)) { busy with now := 9 })
      (fun t => decide (t.fcSlot = some ⟨.cts, 4, 0xF3, 0⟩ ∧ t.rx.cfTimer = .armed 9)) = true
    ∧ nextIs (exec (.fcWait 0 (.ms 10)) { drain with fcSlot := some ⟨.cts, 0, 0, 0⟩ })
      (fun t => decide (t.fcSlot = some ⟨.wait, 0, 10, 10⟩)) = true
    ∧ nextIs (exec (.fcOvflw 0 (.ms 0)) drain) (fun t => decide (t.fcSlot = some ⟨.ovflw, 0, 0, 0⟩ ∧ t.rx = drain.rx)) = true := by
  decide

/-! ## Steps of the tick engine -/

/-- R133's worked example: a frame of another ID is dropped; R187's: a malformed one is reported and aborts. -/
theorem test_drain_step :
    nextIs (step (receiving [⟨0x124, false, [0x03, 1, 2, 3]⟩])) (fun t => decide (t.rxQueue = [] ∧ t.log = [] ∧ t.rxPort = []))
      = true
    ∧ nextIs (step { receiving [⟨0x123, false, [0x40, 0]⟩] with rx := partialRx })
      (fun t => decide (t.rx = RxRegs.reset ∧ t.log = [.report (.malformedFrame [0x40, 0])])) = true
    ∧ nextIs (step (receiving [⟨0x123, false, [0x03, 1, 2, 3]⟩])) (fun t => decide (t.rxQueue = [[1, 2, 3]])) = true := by decide

/-- R224's worked example, with padding. -/
theorem test_own_fc :
    nextIs (step { sending TxRegs.reset with
        fcRequest := true, snap := { ses.snap with blocksize := 2, stmin := 0x14, txPadding := some 0xAA } })
      (fun t => decide (framesOf t.log = [⟨0x456, false, [0x30, 2, 0x14, 0xAA, 0xAA, 0xAA, 0xAA, 0xAA]⟩])) = true := by decide

/-- W2 steps 2 and 3: the First Frame, then the Consecutive Frame after a ContinueToSend. -/
theorem test_first_and_consecutive :
    nextIs (step { sending TxRegs.reset with txQueue := [⟨[0xB0, 0xB1, 0xB2, 0xB3, 0xB4, 0xB5, 0xB6, 0xB7], .physical⟩] })
      (fun t => decide (framesOf t.log = [⟨0x456, false, [0x10, 8, 0xB0, 0xB1, 0xB2, 0xB3, 0xB4, 0xB5]⟩] ∧ t.tx = waitingTx)) = true
    ∧ nextIs (step { sending waitingTx with now := 5, fcSlot := some ⟨.cts, 0, 0, 0⟩ })
      (fun t => decide (framesOf t.log = [⟨0x456, false, [0x21, 0xB6, 0xB7]⟩] ∧ t.tx = TxRegs.reset)) = true := by decide

/-- W4: nothing at 1000, the timeout at 1001; R226: the late Flow Control is unexpected. -/
theorem test_fc_timeout :
    nextIs (step { sending waitingTx with now := 1000 }) (fun t => decide (t.tx = waitingTx ∧ t.phase = .idle)) = true
    ∧ nextIs (step { sending waitingTx with now := 1001 })
      (fun t => decide (t.tx = TxRegs.reset ∧ t.log = [.report .flowControlTimeout])) = true
    ∧ nextIs (step { sending TxRegs.reset with fcSlot := some ⟨.cts, 0, 0, 0⟩ })
      (fun t => decide (t.log = [.report (.unexpectedFlowControl .cts)])) = true := by decide

/-- R262, R292, U9: a reserved opcode is answered to either thread, also while a tick runs; R323: the other commands of the second thread
run between ticks and have no move inside a tick. -/
theorem test_fetch :
    nextIs (step { none0 with host1 := [.command [.byte 0x09]] })
      (fun t => decide (t.results = [⟨.first, .illegalCommand, .nothing⟩] ∧ t.host1 = [])) = true
    ∧ nextIs (step { drain with turn := [.second], host2 := [[.byte 0x1F]] })
      (fun t => decide (t.results = [⟨.second, .illegalCommand, .nothing⟩] ∧ t.phase = .drain)) = true
    ∧ nextIs (step { none0 with turn := [.second], host2 := [[.byte 0x05]] })
      (fun t => decide (t.results = [⟨.second, .illegalCommand, .nothing⟩])) = true
    ∧ nextIs (step { full with turn := [.second], host2 := [[.byte 0x05]] })
      (fun t => decide (t.results = [⟨.second, .ok, .nothing⟩] ∧ t.rxQueue = [])) = true
    ∧ refusedAs (step { drain with turn := [.second], host2 := [[.byte 0x05]] }) .commandDuringTick = true := by decide

/-- R271, R328: a tick answers to the thread that called it; the other thread may submit while it runs. -/
theorem test_driver :
    nextIs (step { ses with turn := [.second], host2 := [[.byte 0x04, .int 7]] })
      (fun t => decide (t.driver = .second ∧ t.phase = .drain ∧ t.now = 7)) = true
    ∧ nextIs (step { drain with driver := .second, turn := [.first], host1 := [.command [.byte 0x01, .byte 0, .byte 1, .byte 9]] })
      (fun t => decide (t.txQueue = [⟨[9], .physical⟩] ∧ t.phase = .drain)) = true
    ∧ nextIs (step { sending TxRegs.reset with driver := .second })
      (fun t => decide (t.results = [⟨.second, .ok, .nothing⟩])) = true := by decide

/-! ## States that meet the hypotheses of the statements -/

/-- DecodeOfEncode: the longest Single Frame, under a prefix, at the shortest link-layer length that takes it. -/
theorem witness_DecodeOfEncode :
    wellFormed (.sf (List.replicate 15 7)) = true
    ∧ ∀ d, Instr.sf (List.replicate 15 7) = .sf d → (d.length : Int) ≤ ((17 : Nat) : Int) - 1 - ([0x10] : List Byte).length := by
  refine ⟨by decide, fun d h => ?_⟩
  cases h
  decide

theorem witness_DecodedPduWellFormed :
    (0x20 :: List.replicate 63 0 : List Byte).length ≤ Config.frameMax
    ∧ decodePdu (0x20 :: List.replicate 63 0) 0 8 = .ok (.cf 0 (List.replicate 63 0)) := by decide

/-- Every clause: SF lengths 1 and 15, the FF, the CF, the Flow Control with STmin codes 0x7F and 0xF1. -/
theorem witness_PduFieldsDecode :
    ((0x01 : Byte).toNat / 16 = 0 ∧ 1 ≤ (0x01 : Byte).toNat % 16 ∧ (((0x01 : Byte).toNat % 16 : Nat) : Int) ≤ (2 : Int) - 1 - 0
      ∧ (0x01 : Byte).toNat % 16 ≤ ([9] : List Byte).length)
    ∧ ((0x0F : Byte).toNat / 16 = 0 ∧ 1 ≤ (0x0F : Byte).toNat % 16 ∧ (((0x0F : Byte).toNat % 16 : Nat) : Int) ≤ (16 : Int) - 1 - 0
      ∧ (0x0F : Byte).toNat % 16 ≤ (List.replicate 15 0 : List Byte).length)
    ∧ (0x1F : Byte).toNat / 16 = 1 ∧ (0x2F : Byte).toNat / 16 = 2
    ∧ ((0x30 : Byte).toNat / 16 = 3 ∧ (0x30 : Byte).toNat % 16 = 0 ∧ (0x7F : Byte).toNat ≤ 0x7F)
    ∧ ((0x31 : Byte).toNat / 16 = 3 ∧ (0x31 : Byte).toNat % 16 = 1 ∧ 0xF1 ≤ (0xF1 : Byte).toNat ∧ (0xF1 : Byte).toNat ≤ 0xF9)
    ∧ ((0x32 : Byte).toNat / 16 = 3 ∧ (0x32 : Byte).toNat % 16 = 2) := by decide

/-- ReservedOpcodeIllegal: the first thread without a session, the second inside a tick; the ends of the reserved ranges. -/
theorem witness_ReservedOpcodeIllegal :
    (∃ t, ({ none0 with host1 := [.command [.byte 0x0F]] } : State).Issues .first [.byte 0x0F] t)
    ∧ (∃ t, ({ drain with turn := [.second], host2 := [[.byte 0xFF]] } : State).Issues .second [.byte 0xFF] t)
    ∧ decodeHost [.byte 0x0F] = .error (.reservedOpcode 0x0F) ∧ decodeHost [.byte 0xFF] = .error (.reservedOpcode 0xFF) :=
  ⟨⟨_, .inr ⟨rfl, rfl, rfl⟩, .inl rfl, [], rfl, rfl⟩, ⟨_, .inl rfl, .inr (by decide), [], rfl, rfl⟩, by decide⟩

theorem witness_PaddingRule :
    3 ≤ ([1, 2, 3] : List Byte).length ∧ ([1, 2, 3] : List Byte).length < 4 := by decide

theorem witness_EveryMessageFramedInRange :
    ((1 + 2 ≤ 3 ∧ 3 ≤ 1 + 16) ∧ frameKind 3 1 1 = .single ∧ frameKind 3 1 4095 = .multi)
    ∧ (1 + 2 ≤ 17 ∧ 17 ≤ 1 + 16) ∧ frameKind 17 1 16 = .multi := by decide

/-- ResolveDerives: operands at the ends of their ranges, for all its clauses at once. -/
theorem witness_ResolveDerives :
    (0x7FF ≤ 0x7FF ∧ 0 ≤ 0x7FF) ∧ (0x1FFFFFFF ≤ 0x1FFFFFFF)
    ∧ (⟨some 0x7FF, some 0, some (0xFF : Byte).toNat, some (0 : Byte).toNat, some (0x99 : Byte).toNat⟩ : AddrFields)
      = ⟨some 0x7FF, some 0, some 255, some 0, some 153⟩ := by decide

/-- ReceiveFilterAccepts, FilterAcceptsOwnIds: a resolved address of every mode. -/
theorem witness_resolved :
    ∀ m ∈ [Mode.normal11, .normal29, .normalFixed29, .extended11, .extended29, .mixed11, .mixed29],
      (resolve m ⟨some 0x7E0, some 0x7E8, some 0x55, some 0xF1, some 0x99⟩).isSome = true := by decide

/-- SubmitAnswers: a session, and a payload for each clause: too short, accepted, queue full, functional of 7 and of 8 bytes. -/
theorem witness_SubmitAnswers :
    ses.addr = some addr ∧ ([] : List Byte).length = 0
    ∧ (1 ≤ ([1] : List Byte).length ∧ ([1] : List Byte).length ≤ 4095 ∧ ses.txQueue.length < ses.cfg.txqDepth)
    ∧ (full.addr = some addr ∧ full.cfg.txqDepth ≤ full.txQueue.length)
    ∧ (((List.replicate 7 0 : List Byte).length : Int) ≤ min ((ses.params.llDataLength : Int) - 1 - addr.pfx.length) 15)
    ∧ (min ((ses.params.llDataLength : Int) - 1 - addr.pfx.length) 15 < ((List.replicate 8 0 : List Byte).length : Int)) := by decide

/-- PollAnswers, StatusOutputsAnswer, ResetClearsSession: a session between ticks, with and without messages. -/
theorem witness_session :
    ses.addr = some addr ∧ ses.phase = .idle ∧ ses.rxQueue = [] ∧ full.addr = some addr ∧ full.phase = .idle
    ∧ full.rxQueue = [1] :: [[2]] := by decide

theorem witness_ResetIdempotent :
    ∃ t u, full.configured = true ∧ exec .reset full = .next t ∧ exec .reset t = .next u := ⟨_, _, rfl, rfl, rfl⟩

/-- CreateAnswers: a session, an illegal operand (an ID one too large), a legal one (an ID of the full width). -/
theorem witness_CreateAnswers :
    ses.phase = .idle ∧ ses.addr = some addr ∧ none0.phase = .idle ∧ none0.addr = none
    ∧ ¬ legalFields .normal11 ⟨some 0x800, some 0, none, none, none⟩ ∧ legalFields .normal11 ⟨some 0x7FF, some 0, none, none, none⟩ := by
  refine ⟨rfl, rfl, rfl, rfl, ?_, ?_⟩
  · intro h
    obtain ⟨v, e, k⟩ := h .txid (by simp [requiredFields])
    cases e
    exact absurd k (by decide)
  · intro x hx
    simp only [requiredFields, List.mem_cons, List.not_mem_nil, or_false] at hx
    rcases hx with rfl | rfl
    · exact ⟨0x7FF, rfl, by decide⟩
    · exact ⟨0, rfl, by decide⟩

/-- SetParamAnswers: the last legal and the first illegal value on each side. -/
theorem witness_SetParamAnswers :
    ses.phase = .idle ∧ none0.phase = .idle ∧ 255 ≤ 255 ∧ 65535 ≤ ses.cfg.paramMax
    ∧ ((256 : Int) < 0 ∨ (255 : Int) < 256) ∧ ((-1 : Int) < 0 ∨ (255 : Int) < -1) ∧ ((2 : Int) ≠ 0 ∧ (2 : Int) ≠ 1)
    ∧ ((65536 : Int) < 0 ∨ (ses.cfg.paramMax : Int) < 65536) := by decide

theorem witness_UnconfiguredCommandsIllegal : none0.addr = none ∧ none0.phase = .idle := by decide

theorem witness_CommandsDuringTickRefused : drain.phase ≠ .idle ∧ (sending waitingTx).phase ≠ .idle := by decide

/-- ProcessStartsTick: both clauses at the edge of the timeout; ProcessRunsWholeTick; DecreasingTimeRefused. -/
theorem witness_process :
    ({ busy with phase := .idle } : State).addr = some addr ∧ busy.now ≤ 1000
    ∧ (busy.rx.state = .waitCf ∧ busy.rx.cfTimer.expired 1001 busy.params.rxConsecutiveFrameTimeout = true)
    ∧ ¬ (busy.rx.state = .waitCf ∧ busy.rx.cfTimer.expired 1000 busy.params.rxConsecutiveFrameTimeout = true)
    ∧ (({ ses with rxPort := [⟨0x7FF, false, List.replicate 64 0⟩] } : State).turn = []
      ∧ ∀ f ∈ ({ ses with rxPort := [⟨0x7FF, false, List.replicate 64 0⟩] } : State).rxPort, frameWithinDuty f = true)
    ∧ (({ ses with now := 5 } : State).phase = .idle ∧ 4 < ({ ses with now := 5 } : State).now) := by decide

theorem witness_TickTerminates :
    drain.addr = some addr ∧ drain.phase ≠ .idle ∧ drain.turn = []
    ∧ ∀ f ∈ (receiving [⟨0x123, false, [0x40]⟩]).rxPort, frameWithinDuty f = true := by decide

/-- ProgressConsumesWork, TransmitStepFrame. -/
theorem witness_progress :
    ∃ t, txStep addr { sending TxRegs.reset with txQueue := [⟨[1], .physical⟩] } = (t, true) := ⟨_, rfl⟩

/-- The invariant holds of the session (IdleTickChangesNothing, StepKeepsInvariant). -/
theorem ses_inv : ses.Inv where
  rx := ⟨fun _ => rfl, (fun h => by cases h), by decide, trivial⟩
  tx := ⟨fun _ => rfl, fun h => absurd rfl h, (fun h => by cases h), (fun h => by cases h), by decide, by decide, by decide,
    trivial, trivial⟩
  request := fun h => by cases h
  slot := fun _ h => by cases h
  txQueue := by decide
  txPayloads := fun _ h => by cases h
  rxQueue := by decide
  rxMessages := fun _ h => by cases h
  params := ⟨by decide, by decide, by decide, by decide⟩
  snap := ⟨by decide, by decide, by decide, by decide⟩
  addr := fun _ h => ⟨.normal11, ⟨some 0x456, some 0x123, none, none, none⟩, h⟩
  session := fun h => by cases h

theorem witness_IdleTickChangesNothing :
    ses.Inv ∧ ses.addr = some addr ∧ ses.phase = .idle ∧ ses.turn = [] ∧ ses.now ≤ 0 ∧ ses.rx.state = .idle ∧ ses.tx.state = .idle
    ∧ ses.rxPort = [] ∧ ses.txQueue = [] := ⟨ses_inv, by decide⟩

/-- StepKeepsInvariant, AddressImmutable, StepExtendsLog: a step from a state that meets the invariant. -/
theorem witness_StepKeepsInvariant : ∃ t, ses.Inv ∧ step ses = .next t := ⟨_, ses_inv, rfl⟩

/-- SingleFrameReceived: the four clauses, at the last free place and at the first missing one. -/
theorem witness_SingleFrameReceived :
    ({ drain with rxQueue := [[1]] } : State).rx.state = .idle ∧ ({ drain with rxQueue := [[1]] } : State).rxQueue.length < drain.cfg.rxqDepth
    ∧ (full.rx.state = .idle ∧ full.cfg.rxqDepth ≤ full.rxQueue.length)
    ∧ (({ busy with rxQueue := [[1]] } : State).rx.state = .waitCf ∧ ({ busy with rxQueue := [[1]] } : State).rxQueue.length < busy.cfg.rxqDepth)
    ∧ (({ full with rx := partialRx } : State).rx.state = .waitCf
      ∧ ({ full with rx := partialRx } : State).cfg.rxqDepth ≤ ({ full with rx := partialRx } : State).rxQueue.length) := by decide

/-- FirstFrameReceived, FlowControlReceived, ConsecutiveFrameRejected: both receive states; a wrong number at the wrap. -/
theorem witness_receive_states :
    drain.rx.state = .idle ∧ busy.rx.state = .waitCf
    ∧ ({ busy with rx := { partialRx with lastSeq := 15 } } : State).rx.state = .waitCf
    ∧ (0 : Nibble).toNat = (({ busy with rx := { partialRx with lastSeq := 15 } } : State).rx.lastSeq.toNat + 1) % 16
    ∧ (15 : Nibble) ≠ 0 := by decide

/-- ConsecutiveFrameAccepted, for a state, the frame's data and the resulting buffer: the premises of every clause, at the wrap of the
number, with a full queue and with one place, and with the block ended and not ended. -/
theorem witness_ConsecutiveFrameAccepted :
    let fits := fun (s : State) (n : Nibble) (d buf : List Byte) => decide (s.rx.state = .waitCf
      ∧ n.toNat = (s.rx.lastSeq.toNat + 1) % 16 ∧ buf = s.rx.buf ++ d.take (min (s.rx.len.toNat - s.rx.buf.length) d.length))
    let whole : List Byte := [0xB0, 0xB1, 0xB2, 0xB3, 0xB4, 0xB5, 6, 7]
    let wrapped : State := { busy with rx := { partialRx with lastSeq := 15 }, rxQueue := [[1]] }
    (fits wrapped 0 [6, 7, 0xCC] whole = true ∧ wrapped.rx.len.toNat ≤ whole.length ∧ wrapped.rxQueue.length < wrapped.cfg.rxqDepth)
    ∧ (fits { full with rx := partialRx } 1 [6, 7] whole = true ∧ full.cfg.rxqDepth ≤ full.rxQueue.length)
    ∧ (fits busy 1 [6] (whole.take 7) = true ∧ (whole.take 7).length < busy.rx.len.toNat ∧ busy.snap.blocksize = 0)
    ∧ (fits (under ({ · with blocksize := 2 }) busy) 1 [6] (whole.take 7) = true
      ∧ (under ({ · with blocksize := 2 }) busy).snap.blocksize ≠ 0
      ∧ busy.rx.blockCnt + 1 < (under ({ · with blocksize := 2 }) busy).snap.blocksize.toNat)
    ∧ (fits (under ({ · with blocksize := 1 }) busy) 1 [6] (whole.take 7) = true
      ∧ (under ({ · with blocksize := 1 }) busy).snap.blocksize ≠ 0
      ∧ (under ({ · with blocksize := 1 }) busy).snap.blocksize.toNat ≤ busy.rx.blockCnt + 1) := by decide

/-- FramesDroppedOrMalformed: a frame one ID off, and a malformed one in both receive states. -/
theorem witness_FramesDroppedOrMalformed :
    let bad : Frame := ⟨0x123, false, [0x40]⟩
    (receiving [⟨0x124, false, [1]⟩]).Receives addr ⟨0x124, false, [1]⟩ [] ∧ isForMe addr ⟨0x124, false, [1]⟩ = false
    ∧ ((receiving [bad]).Receives addr bad [] ∧ (receiving [bad]).rx.state = .idle)
    ∧ (({ receiving [bad] with rx := partialRx } : State).Receives addr bad []
      ∧ ({ receiving [bad] with rx := partialRx } : State).rx.state = .waitCf)
    ∧ isForMe addr bad = true
    ∧ decodePdu [0x40] addr.pfx.length drain.snap.llDataLength = .error (.malformed .reservedType) :=
  ⟨⟨rfl, rfl, rfl, rfl, by decide⟩, by decide, ⟨⟨rfl, rfl, rfl, rfl, by decide⟩, rfl⟩, ⟨⟨rfl, rfl, rfl, rfl, by decide⟩, rfl⟩,
    by decide, by decide⟩

theorem witness_ReceivedPduFrame : ∃ t, (Instr.sf [1]).isPdu = true ∧ exec (.sf [1]) busy = .next t := ⟨_, rfl, rfl⟩

theorem witness_SegmentsReassemble :
    (List.replicate 8 0 : List Byte).length ≤ 4095 ∧ frameKind 8 0 (List.replicate 8 0 : List Byte).length = .multi
    ∧ drain.rx.state = .idle ∧ drain.rxQueue.length < drain.cfg.rxqDepth := by decide

theorem witness_OwnFlowControlSentFirst :
    ({ sending waitingTx with fcRequest := true } : State).InTransmit addr
    ∧ ({ sending waitingTx with fcRequest := true } : State).fcRequest = true := ⟨⟨rfl, rfl, rfl⟩, rfl⟩

theorem witness_UnexpectedFlowControlIgnored :
    ({ sending TxRegs.reset with fcSlot := some ⟨.ovflw, 0, 0, 0⟩ } : State).fcSlot = some ⟨.ovflw, 0, 0, 0⟩
    ∧ (sending TxRegs.reset).tx.state = .idle := by decide

/-- WaitHandled: limit 0; limit 2 with two Waits counted, and with one, in both states of a transmission. -/
theorem witness_WaitHandled :
    let two := under ({ · with maxWaitFrames := 2 })
    ∀ t ∈ [waitingTx, sendingTx],
      (handed .wait t).fcSlot = some ⟨.wait, 0, 0, 0⟩ ∧ (handed .wait t).tx.state ≠ .idle ∧ (handed .wait t).snap.maxWaitFrames = 0
      ∧ ((two (handed .wait { t with waitCnt := 2 })).fcSlot = some ⟨.wait, 0, 0, 0⟩
        ∧ (two (handed .wait { t with waitCnt := 2 })).tx.state ≠ .idle
        ∧ (two (handed .wait { t with waitCnt := 2 })).snap.maxWaitFrames ≠ 0
        ∧ (two (handed .wait { t with waitCnt := 2 })).snap.maxWaitFrames ≤ 2)
      ∧ (two (handed .wait { t with waitCnt := 1 })).snap.maxWaitFrames ≠ 0
      ∧ 1 < (two (handed .wait { t with waitCnt := 1 })).snap.maxWaitFrames := by decide

/-- OverflowHandled: in both states of a transmission. -/
theorem witness_OverflowHandled :
    ∀ t ∈ [waitingTx, sendingTx],
      (handed .ovflw t).fcSlot = some ⟨.ovflw, 0, 0, 0⟩ ∧ (handed .ovflw t).tx.state ≠ .idle := by decide

/-- ContinueToSendHandled: the timer expired at 1001 and not at 1000, and a CTS while sending. -/
theorem witness_ContinueToSendHandled :
    (handed .cts waitingTx).fcSlot = some ⟨.cts, 0, 0, 0⟩ ∧ (handed .cts waitingTx).tx.state = .waitFc
    ∧ ({ handed .cts waitingTx with now := 1001 } : State).tx.fcTimer.expired 1001 (handed .cts waitingTx).snap.rxFlowcontrolTimeout = true
    ∧ ({ handed .cts waitingTx with now := 1000 } : State).tx.fcTimer.expired 1000 (handed .cts waitingTx).snap.rxFlowcontrolTimeout = false
    ∧ (handed .cts sendingTx).tx.state = .txCf
    ∧ (handed .cts sendingTx).tx.fcTimer.expired 0 (handed .cts sendingTx).snap.rxFlowcontrolTimeout = false := by decide

/-- FlowControlTimeoutOrder: the premises with each kind of slot; a Wait within its limit and over it, the timeout 0. -/
theorem witness_FlowControlTimeoutOrder :
    (∀ s ∈ [{ sending waitingTx with now := 1001 }, { handed .cts waitingTx with now := 1001 }, { handed .ovflw waitingTx with now := 1001 },
        { handed .wait waitingTx with now := 1001 }, { under ({ · with maxWaitFrames := 1 }) (handed .wait waitingTx) with now := 1001 },
        under ({ · with maxWaitFrames := 1, rxFlowcontrolTimeout := 0 }) (handed .wait waitingTx)],
      (s.phase = .transmit ∧ s.addr = some addr ∧ s.turn = []) ∧ s.fcRequest = false ∧ s.tx.state = .waitFc ∧ s.txQueue = []
      ∧ s.tx.fcTimer.expired s.now s.snap.rxFlowcontrolTimeout = true)
    ∧ waitingTx.waitCnt < (under ({ · with maxWaitFrames := 1 }) (handed .wait waitingTx)).snap.maxWaitFrames
    ∧ (handed .wait waitingTx).snap.maxWaitFrames ≤ waitingTx.waitCnt := by decide

/-- QueuedMessageStarted: the premises, with 7 and 8 bytes physical, 8 bytes functional, and a link-layer length that carries
nothing. -/
theorem witness_QueuedMessageStarted :
    let queued := fun (n : Nat) (tg : Target) => ({ sending TxRegs.reset with txQueue := [⟨List.replicate n 0, tg⟩] } : State)
    (∀ s ∈ [queued 7 .physical, queued 7 .functional, queued 8 .physical, queued 8 .functional,
        under ({ · with llDataLength := 1 }) (queued 1 .physical)],
      (s.phase = .transmit ∧ s.addr = some addr ∧ s.turn = []) ∧ s.tx.state = .idle
      ∧ (s.fcRequest = false ∧ s.fcSlot = none ∧ s.tx.fcTimer.expired s.now s.snap.rxFlowcontrolTimeout = false))
    ∧ frameKind ses.snap.llDataLength addr.pfx.length 7 = .single ∧ frameKind ses.snap.llDataLength addr.pfx.length 8 = .multi
    ∧ frameKind 1 addr.pfx.length 1 = .untransmittable := by decide

/-- ConsecutiveFrameSent: the premises; due (the separation timer, squash timing) and not due; nothing fits; the last frame, the end of
a block, and the middle of one. -/
theorem witness_ConsecutiveFrameSent :
    let paced : State := sending { sendingTx with peerStminMs := 10 }
    let block : State := sending { sendingTx with peerBs := 1 }
    let last : State := sending { sendingTx with buf := [1, 2, 3, 4, 5, 6, 7] }
    (∀ s ∈ [sending sendingTx, paced, block, last, under ({ · with squashTiming := true }) paced,
        under ({ · with llDataLength := 1 }) (sending sendingTx)],
      (s.phase = .transmit ∧ s.addr = some addr ∧ s.turn = []) ∧ s.tx.state = .txCf
      ∧ (s.fcRequest = false ∧ s.fcSlot = none ∧ s.tx.fcTimer.expired s.now s.snap.rxFlowcontrolTimeout = false))
    ∧ (∀ s ∈ [sending sendingTx, block, last, under ({ · with llDataLength := 1 }) (sending sendingTx)],
      s.tx.stminTimer.expired s.now s.tx.peerStminMs = true)
    ∧ ¬ (paced.snap.squashTiming = true ∨ paced.tx.stminTimer.expired paced.now paced.tx.peerStminMs = true)
    ∧ (((1 : Nat) : Int) - 1 - addr.pfx.length < 1) ∧ ((7 : Nat) : Int) = ((sending sendingTx).snap.llDataLength : Int) - 1 - addr.pfx.length
    ∧ last.tx.buf.length ≤ 7 ∧ (7 < block.tx.buf.length ∧ block.tx.peerBs ≠ 0 ∧ block.tx.peerBs.toNat ≤ block.tx.blockCnt + 1)
    ∧ (7 < sendingTx.buf.length ∧ sendingTx.peerBs = 0)
    ∧ sendingTx.blockCnt + 1 < ({ sendingTx with peerBs := 2 } : TxRegs).peerBs.toNat := by decide

theorem witness_HandoffLivesOneTick :
    ∃ t, step (sending waitingTx) = .next t ∧ (sending waitingTx).phase ≠ .idle ∧ t.phase = .idle := ⟨_, rfl, by decide, rfl⟩

/-- BurstSendsAllConsecutiveFrames: ten bytes in two frames of at most seven. -/
theorem witness_BurstSendsAllConsecutiveFrames :
    (sending sendingTx).InTransmit addr ∧ (sending sendingTx).NoHandshake
    ∧ ((sending sendingTx).tx.state = .txCf ∧ (sending sendingTx).txQueue = [] ∧ sendingTx.fcTimer = .disarmed
      ∧ sendingTx.peerBs = 0 ∧ sendingTx.peerStminMs = 0 ∧ sendingTx.stminTimer.isArmed = true
      ∧ ((7 : Nat) : Int) = ((sending sendingTx).snap.llDataLength : Int) - 1 - addr.pfx.length ∧ 1 ≤ 7 ∧ sendingTx.buf ≠ []
      ∧ (2 - 1) * 7 < sendingTx.buf.length ∧ sendingTx.buf.length ≤ 2 * 7) := ⟨⟨rfl, rfl, rfl⟩, ⟨rfl, rfl, by decide⟩, by decide⟩

/-- StepRunsHostCommand: each thread between ticks, and the first inside a tick of the second. -/
theorem witness_StepRunsHostCommand :
    (∃ t, ({ none0 with host1 := [.command [.byte 0x03]] } : State).Issues .first [.byte 0x03] t)
    ∧ (∃ t, ({ none0 with turn := [.second], host2 := [[.byte 0x03]] } : State).Issues .second [.byte 0x03] t)
    ∧ (∃ t, ({ drain with driver := .second, turn := [.first], host1 := [.command [.byte 0x03]] } : State).Issues .first [.byte 0x03] t)
    ∧ decodeHost [.byte 0x03] = .ok .poll :=
  ⟨⟨_, .inr ⟨rfl, rfl, rfl⟩, .inl rfl, [], rfl, rfl⟩, ⟨_, .inl rfl, .inl rfl, [], rfl, rfl⟩,
    ⟨_, .inl rfl, .inr (by decide), [], rfl, rfl⟩, by decide⟩

theorem witness_StepRunsReceivedPdu :
    (receiving [⟨0x123, false, [0x01, 9]⟩]).EngineMoves ∧ (receiving [⟨0x123, false, [0x01, 9]⟩]).phase = .drain
    ∧ frameWithinDuty ⟨0x123, false, [0x01, 9]⟩ = true ∧ isForMe addr ⟨0x123, false, [0x01, 9]⟩ = true
    ∧ decodePdu [0x01, 9] addr.pfx.length drain.snap.llDataLength = .ok (.sf [9]) :=
  ⟨fun _ h => (by cases h), by decide⟩

/-- ConcurrentCommandsTouchOnlyQueues: each command of the second thread, inside a tick. -/
theorem witness_ConcurrentCommandsTouchOnlyQueues :
    ∀ w ∈ [[Tok.byte 0x01, .byte 0, .byte 0], [.byte 0x02, .byte 0, .byte 0], [.byte 0x03], [.byte 0x06]],
      (∃ t, ({ drain with turn := [.second], host2 := [w] } : State).Issues .second w t)
      ∧ ∃ i, decodeHost w = .ok i ∧ i.concurrent = true := by
  intro w hw
  refine ⟨⟨_, .inl rfl, .inr (show Agent.first ≠ .second by decide), [], rfl, rfl⟩, ?_⟩
  simp only [List.mem_cons, List.not_mem_nil, or_false] at hw
  rcases hw with rfl | rfl | rfl | rfl
  · exact ⟨.submitPhys [], by decide⟩
  · exact ⟨.submitFunc [], by decide⟩
  · exact ⟨.poll, by decide⟩
  · exact ⟨.available, by decide⟩

/-- OnlySetParamWritesParams: a step that does change the parameters. -/
theorem witness_OnlySetParamWritesParams :
    nextIs (step { none0 with host1 := [.command [.byte 0x17, .int 64]] })
      (fun t => decide (t.params ≠ none0.params ∧ t.params.llDataLength = 64)) = true := by decide

/-- HandshakeThenStateMachine: a live Flow Control in the slot, an expired timer behind a late one, and a state that needs no handshake. -/
theorem witness_HandshakeThenStateMachine :
    (handed .cts waitingTx).InTransmit addr ∧ (handed .cts waitingTx).fcRequest = false
    ∧ (txConsumeSlot (handed .cts waitingTx)).tx.fcTimer.expired 0 1000 = false
    ∧ (txConsumeSlot { handed .cts waitingTx with now := 1001 }).tx.fcTimer.expired 1001 1000 = true
    ∧ (sending waitingTx).InTransmit addr ∧ (sending waitingTx).NoHandshake ∧ (sending waitingTx).tx.state = .waitFc :=
  ⟨⟨rfl, rfl, rfl⟩, rfl, by decide, by decide, ⟨rfl, rfl, rfl⟩, ⟨rfl, rfl, by decide⟩, rfl⟩

/-- ContinueToSendSendsAtOnce: separation time 0 and not 0; the last frame, and more than one frame left with block sizes 1 and 0. -/
theorem witness_ContinueToSendSendsAtOnce :
    let ten : TxRegs := { waitingTx with buf := sendingTx.buf }
    let waits := fun (t : TxRegs) (bs : Byte) (ms : Nat) => ({ sending t with fcSlot := some ⟨.cts, bs, 0, ms⟩ } : State)
    (∀ s ∈ [waits waitingTx 0 0, waits waitingTx 0 10, waits ten 1 0, waits ten 0 0],
      (s.phase = .transmit ∧ s.addr = some addr ∧ s.turn = []) ∧ s.fcRequest = false ∧ s.tx.state = .waitFc
      ∧ s.tx.fcTimer.expired s.now s.snap.rxFlowcontrolTimeout = false ∧ s.snap.squashTiming = false
      ∧ ((7 : Nat) : Int) = (s.snap.llDataLength : Int) - 1 - addr.pfx.length)
    ∧ waitingTx.buf.length ≤ 7 ∧ 7 < ten.buf.length := by decide

/-- NextMessageStartsAtOnce: an unexpected Flow Control, an Overflow, a Wait over its limit, an expired timer. -/
theorem witness_NextMessageStartsAtOnce :
    let queued := fun (s : State) => ({ s with txQueue := [⟨[1], .physical⟩] } : State)
    (∀ s ∈ [queued (handed .wait TxRegs.reset), queued (handed .ovflw waitingTx), queued (handed .wait waitingTx),
        { queued (sending waitingTx) with now := 1001 }],
      (s.phase = .transmit ∧ s.addr = some addr ∧ s.turn = []) ∧ s.fcRequest = false ∧ s.txQueue = [⟨[1], .physical⟩]
      ∧ frameKind s.snap.llDataLength addr.pfx.length 1 = .single)
    ∧ waitingTx.state ≠ .idle ∧ (queued (handed .wait waitingTx)).snap.maxWaitFrames ≤ waitingTx.waitCnt
    ∧ waitingTx.fcTimer.expired 1001 ses.snap.rxFlowcontrolTimeout = true := by decide

end Sys2Proof.Tests
end

section
/-! PROOFS. The reserved host opcodes (R105): which they are, and that a step that takes one only answers. -/

namespace Sys2Proof

/-- An assigned opcode is never rejected as reserved: operands that cannot be read are `badOperands` (R102). -/
theorem withOperands_ne_reserved {α : Type} {op op' : Byte} {operands : Option α} {mk : α → Instr} :
    withOperands op operands mk ≠ .error (.reservedOpcode op') := by
  cases operands with
  | none => simp [withOperands]
  | some x => simp [withOperands]

/-- The reserved opcodes are the gaps of the assignment of R101, R104 and R106 (R105), whatever follows them. -/
theorem decodeOpcode_reserved_iff (op : Byte) (ts : List Tok) :
    decodeOpcode op ts = .error (.reservedOpcode op) ↔
      op.toNat = 0 ∨ (0x09 ≤ op.toNat ∧ op.toNat ≤ 0x0F) ∨ (0x18 ≤ op.toNat ∧ op.toNat ≤ 0x1F) ∨ 0x27 ≤ op.toNat := by
  unfold decodeOpcode
  split
  case h_24 =>
    refine iff_of_true rfl ?_
    simp only [imp_false] at *
    omega
  all_goals exact iff_of_false withOperands_ne_reserved (by omega)

namespace Machine

/-- A reserved opcode is answered `IllegalCommand` to the thread that issued it (R105). -/
theorem fetchCommand_reserved {who : Agent} {w : List Tok} {op : Byte} (s : State)
    (h : decodeHost w = .error (.reservedOpcode op)) :
    fetchCommand who w s = .done (.next (({ s with caller := who } : State).answer .illegalCommand)) := by
  simp [fetchCommand, h]

/-- Taking a thread's word already names that thread as the caller (R328). -/
theorem State.Issues.caller {s t : State} {who : Agent} {w : List Tok} (h : s.Issues who w t) : t.caller = who := by
  obtain ⟨-, -, hl⟩ := h
  cases who with
  | first => obtain ⟨rest, -, rfl⟩ := hl; rfl
  | second => obtain ⟨rest, -, rfl⟩ := hl; rfl

/-- The whole effect of a step that takes a reserved opcode is its answer, from every state in which a thread can issue it
(R105, R262, R292). -/
theorem step_issues_reserved {s t : State} {who : Agent} {w : List Tok} {op : Byte} (hi : s.Issues who w t)
    (hd : decodeHost w = .error (.reservedOpcode op)) :
    step s = .next { t with results := t.results ++ [⟨who, .illegalCommand, .nothing⟩] } := by
  obtain rfl := hi.caller
  have hf : fetch s = .done (.next (t.answer .illegalCommand)) :=
    (fetch_issues hi).trans (fetchCommand_reserved t hd)
  rw [step, hf]
  rfl

end Machine

/-- Settles O6: the list is the gaps of the opcode table (`decodeOpcode_reserved_iff`), and the step does nothing but answer
(`step_issues_reserved`), which asks for no phase, no session and no particular thread. -/
theorem reservedOpcodeIllegal : Obligations.ReservedOpcodeIllegal := by
  intro op ts
  exact ⟨decodeOpcode_reserved_iff op ts, fun _ _ _ hi hd => Machine.step_issues_reserved hi hd⟩

end Sys2Proof

end

section
/-! PROOFS. The receive filter over resolved addresses (40_addressing.md R133 to R137): which fields the resolver of each mode
builds the address from, and what each check of the filter then says about those fields. -/

namespace Sys2Proof.Machine

/-! ## What each resolver answers (R121, R124 to R130) -/

/-- `Normal11` and `Normal29` need the two IDs (R124, R125). -/
theorem resolveNormal_eq_some {m : Mode} {is29 : Bool} {f : AddrFields} {a : Addr} :
    resolveNormal m is29 f = some a ↔ ∃ tx rx, requireId is29 f.txid = some tx ∧ requireId is29 f.rxid = some rx
      ∧ configuredIds m is29 tx rx [] none none none = a := by
  constructor
  · intro h
    unfold resolveNormal at h
    split at h
    · exact ⟨_, _, ‹_›, ‹_›, Option.some_inj.mp h⟩
    · cases h
  · rintro ⟨tx, rx, htx, hrx, rfl⟩
    simp only [resolveNormal, htx, hrx]

/-- `NormalFixed29` needs the target and the source byte (R126). -/
theorem resolveNormalFixed_eq_some {f : AddrFields} {a : Addr} :
    resolveNormalFixed f = some a ↔ ∃ ta sa, requireByte f.ta = some ta ∧ requireByte f.sa = some sa
      ∧ patternIds .normalFixed29 0xDA 0xDB ta sa [] none = a := by
  constructor
  · intro h
    unfold resolveNormalFixed at h
    split at h
    · exact ⟨_, _, ‹_›, ‹_›, Option.some_inj.mp h⟩
    · cases h
  · rintro ⟨ta, sa, hta, hsa, rfl⟩
    simp only [resolveNormalFixed, hta, hsa]

/-- `Extended11` and `Extended29` need the two IDs, the target and the source byte (R127, R128). -/
theorem resolveExtended_eq_some {m : Mode} {is29 : Bool} {f : AddrFields} {a : Addr} :
    resolveExtended m is29 f = some a ↔ ∃ tx rx ta sa, requireId is29 f.txid = some tx
      ∧ requireId is29 f.rxid = some rx ∧ requireByte f.ta = some ta ∧ requireByte f.sa = some sa
      ∧ configuredIds m is29 tx rx [ta] (some ta) (some sa) none = a := by
  constructor
  · intro h
    unfold resolveExtended at h
    split at h
    · exact ⟨_, _, _, _, ‹_›, ‹_›, ‹_›, ‹_›, Option.some_inj.mp h⟩
    · cases h
  · rintro ⟨tx, rx, ta, sa, htx, hrx, hta, hsa, rfl⟩
    simp only [resolveExtended, htx, hrx, hta, hsa]

/-- `Mixed11` needs the two IDs and the extension byte (R129). -/
theorem resolveMixed11_eq_some {f : AddrFields} {a : Addr} :
    resolveMixed11 f = some a ↔ ∃ tx rx ae, requireId false f.txid = some tx ∧ requireId false f.rxid = some rx
      ∧ requireByte f.ae = some ae ∧ configuredIds .mixed11 false tx rx [ae] none none (some ae) = a := by
  constructor
  · intro h
    unfold resolveMixed11 at h
    split at h
    · exact ⟨_, _, _, ‹_›, ‹_›, ‹_›, Option.some_inj.mp h⟩
    · cases h
  · rintro ⟨tx, rx, ae, htx, hrx, hae, rfl⟩
    simp only [resolveMixed11, htx, hrx, hae]

/-- `Mixed29` needs the target, the source and the extension byte (R130). -/
theorem resolveMixed29_eq_some {f : AddrFields} {a : Addr} :
    resolveMixed29 f = some a ↔ ∃ ta sa ae, requireByte f.ta = some ta ∧ requireByte f.sa = some sa
      ∧ requireByte f.ae = some ae ∧ patternIds .mixed29 0xCE 0xCD ta sa [ae] (some ae) = a := by
  constructor
  · intro h
    unfold resolveMixed29 at h
    split at h
    · exact ⟨_, _, _, ‹_›, ‹_›, ‹_›, Option.some_inj.mp h⟩
    · cases h
  · rintro ⟨ta, sa, ae, hta, hsa, hae, rfl⟩
    simp only [resolveMixed29, hta, hsa, hae]

/-! ## The filter's checks, said about the operands -/

section
variable {m : Mode} {is29 : Bool} {tx rx : Nat} {pf pf' : Byte} {pfx : List Byte} {f : AddrFields} {o : Option Nat} {e : Byte}

/-- The configured ID that the filter compares is the `rxid` operand (R133, R135, R136). -/
theorem matchesConfiguredId_iff_rxid {ta sa ae : Option Byte} (fr : Frame) (hrx : requireId is29 f.rxid = some rx) :
    matchesConfiguredId (configuredIds m is29 tx rx pfx ta sa ae) fr = true ↔ fr.ext = is29 ∧ f.rxid = some fr.id := by
  obtain ⟨hf, -⟩ := requireId_eq_some.mp hrx
  rw [hf]
  exact matchesConfiguredId_iff _ fr

/-- The two low ID bytes that the filter compares are the `sa` and `ta` operands (R134, R137). -/
theorem matchesPatternId_iff_sa_ta {ta sa : Byte} {ae : Option Byte} (fr : Frame) (hta : requireByte f.ta = some ta)
    (hsa : requireByte f.sa = some sa) :
    matchesPatternId pf pf' (patternIds m pf pf' ta sa pfx ae) fr = true ↔
      fr.ext = true ∧ (fr.id / 65536 % 256 = pf.toNat ∨ fr.id / 65536 % 256 = pf'.toNat)
        ∧ f.sa = some (fr.id / 256 % 256) ∧ f.ta = some (fr.id % 256) := by
  rw [requireByte_eq_some.mp hta, requireByte_eq_some.mp hsa, Option.some_inj, Option.some_inj,
    eq_comm (a := sa.toNat), eq_comm (a := ta.toNat)]
  exact matchesPatternId_iff pf pf' sa ta fr rfl rfl

/-- The leading byte that the filter wants is the operand it was resolved from, `sa` or `ae` (R135 to R137). -/
theorem leadsWith_iff_operand (fr : Frame) (ho : requireByte o = some e) :
    leadsWith (some e) fr = true ↔ ∃ b rest, fr.data = b :: rest ∧ o = some b.toNat := by
  rw [leadsWith_iff]
  constructor
  · rintro ⟨rest, hd⟩
    exact ⟨e, rest, hd, requireByte_eq_some.mp ho⟩
  · rintro ⟨b, rest, hd, hb⟩
    obtain rfl : e = b := Option.some_inj.mp (ho.symm.trans (requireByte_eq_some.mpr hb))
    exact ⟨rest, hd⟩

/-- A configured ID with a leading byte: the filter of the extended modes and of `Mixed11` (R135, R136). -/
theorem matchesConfiguredId_leadsWith_iff {ta sa ae : Option Byte} (fr : Frame) (hrx : requireId is29 f.rxid = some rx)
    (ho : requireByte o = some e) :
    (matchesConfiguredId (configuredIds m is29 tx rx pfx ta sa ae) fr && leadsWith (some e) fr) = true ↔
      fr.ext = is29 ∧ f.rxid = some fr.id ∧ ∃ b rest, fr.data = b :: rest ∧ o = some b.toNat := by
  rw [Bool.and_eq_true, matchesConfiguredId_iff_rxid fr hrx, leadsWith_iff_operand fr ho, and_assoc]

/-- A pattern ID with a leading byte: the filter of `Mixed29` (R137). -/
theorem matchesPatternId_leadsWith_iff {ta sa : Byte} {ae : Option Byte} (fr : Frame) (hta : requireByte f.ta = some ta)
    (hsa : requireByte f.sa = some sa) (ho : requireByte o = some e) :
    (matchesPatternId pf pf' (patternIds m pf pf' ta sa pfx ae) fr && leadsWith (some e) fr) = true ↔
      fr.ext = true ∧ (fr.id / 65536 % 256 = pf.toNat ∨ fr.id / 65536 % 256 = pf'.toNat)
        ∧ f.sa = some (fr.id / 256 % 256) ∧ f.ta = some (fr.id % 256)
        ∧ ∃ b rest, fr.data = b :: rest ∧ o = some b.toNat := by
  simp only [Bool.and_eq_true, matchesPatternId_iff_sa_ta fr hta hsa, leadsWith_iff_operand fr ho, and_assoc]

end

end Sys2Proof.Machine

namespace Sys2Proof

open Machine

/-- Settles O13, mode by mode: the resolver says which operands the address was built from (`resolveNormal_eq_some` and the four
beside it), and each check of the filter compares the frame with one of them. -/
theorem receiveFilterAccepts : Obligations.ReceiveFilterAccepts := by
  intro m f a fr h
  cases m with
  | normal11 =>
    obtain ⟨tx, rx, -, hrx, rfl⟩ := resolveNormal_eq_some.mp h
    exact matchesConfiguredId_iff_rxid fr hrx
  | normal29 =>
    obtain ⟨tx, rx, -, hrx, rfl⟩ := resolveNormal_eq_some.mp h
    exact matchesConfiguredId_iff_rxid fr hrx
  | normalFixed29 =>
    obtain ⟨ta, sa, hta, hsa, rfl⟩ := resolveNormalFixed_eq_some.mp h
    exact matchesPatternId_iff_sa_ta fr hta hsa
  | extended11 =>
    obtain ⟨tx, rx, ta, sa, -, hrx, -, hsa, rfl⟩ := resolveExtended_eq_some.mp h
    exact matchesConfiguredId_leadsWith_iff fr hrx hsa
  | extended29 =>
    obtain ⟨tx, rx, ta, sa, -, hrx, -, hsa, rfl⟩ := resolveExtended_eq_some.mp h
    exact matchesConfiguredId_leadsWith_iff fr hrx hsa
  | mixed11 =>
    obtain ⟨tx, rx, ae, -, hrx, hae, rfl⟩ := resolveMixed11_eq_some.mp h
    exact matchesConfiguredId_leadsWith_iff fr hrx hae
  | mixed29 =>
    obtain ⟨ta, sa, ae, hta, hsa, hae, rfl⟩ := resolveMixed29_eq_some.mp h
    exact matchesPatternId_leadsWith_iff fr hta hsa hae

end Sys2Proof

end

section
/-! PROOFS. Padding (R165): `pad` is right padding by as many bytes as the frame lacks. -/

namespace Sys2Proof.Machine

variable (bytes : List Byte) (ll : Nat) (b : Byte)

@[simp] theorem pad_none : pad bytes ll none = bytes := rfl

/-- Both cases of `pad` at once: a frame that is long enough lacks no byte. -/
theorem pad_some : pad bytes ll (some b) = bytes ++ List.replicate (ll - bytes.length) b := by
  simp only [pad]
  split
  · rfl
  next hlong => rw [Nat.sub_eq_zero_of_le (Nat.le_of_not_lt hlong), List.replicate_zero, List.append_nil]

/-- Padding never truncates, and never leaves a frame short. -/
@[simp] theorem length_pad_some : (pad bytes ll (some b)).length = max bytes.length ll := by
  rw [pad_some, List.length_append, List.length_replicate]
  omega

@[simp] theorem take_length_pad_some : (pad bytes ll (some b)).take bytes.length = bytes := by
  rw [pad_some, List.take_left]

@[simp] theorem drop_length_pad_some :
    (pad bytes ll (some b)).drop bytes.length = List.replicate (ll - bytes.length) b := by
  rw [pad_some, List.drop_left]

variable {bytes ll}

theorem pad_some_of_length_le (hlong : ll ≤ bytes.length) : pad bytes ll (some b) = bytes := by
  rw [pad_some, Nat.sub_eq_zero_of_le hlong, List.replicate_zero, List.append_nil]

end Sys2Proof.Machine

namespace Sys2Proof

open Machine

/-- Settles O7: `pad` appends the pad byte `ll - bytes.length` times (`pad_some`): none at all when the frame is long enough. -/
theorem paddingRule : Obligations.PaddingRule := by
  intro bytes ll
  refine ⟨pad_none bytes ll, fun b => ⟨pad_some_of_length_le b, fun hshort => ⟨?_, ?_, ?_⟩⟩⟩
  · rw [length_pad_some, Nat.max_eq_right (Nat.le_of_lt hshort)]
  · exact take_length_pad_some bytes ll b
  · intro x hx
    rw [drop_length_pad_some] at hx
    exact List.eq_of_mem_replicate hx

end Sys2Proof

end

section
/-! PROOFS. The receive side (42_receive.md R187 to R198): the answer of `exec` to each received PDU, and the whole state it leaves.
Three facts carry the statements: sequence numbers count modulo 16, a completed reassembly is a return to Idle and a delivery in either
order, and a block counts up to its size. -/

namespace Sys2Proof.Machine

/-! ## The received PDUs -/

theorem exec_sf (d : List Byte) (s : State) : exec (.sf d) s = .next (rxSf d s) := rfl

theorem exec_ff (len : FfLength) (d : List Byte) (s : State) : exec (.ff len d) s = .next (rxFf len d s) := rfl

theorem exec_cf (n : Nibble) (d : List Byte) (s : State) : exec (.cf n d) s = .next (rxCf n d s) := rfl

/-- The three Flow Controls differ in the status they put in the slot, and in nothing else (R189). -/
theorem exec_fc {bs : Byte} {st : StminCode} {p : Instr × FlowStatus} (s : State)
    (hp : p ∈ [(Instr.fcCts bs st, FlowStatus.cts), (.fcWait bs st, .wait), (.fcOvflw bs st, .ovflw)]) :
    exec p.1 s = .next (rxFc (flowControl p.2 bs st) s) := by
  simp only [List.mem_cons, List.not_mem_nil, or_false] at hp
  obtain rfl | rfl | rfl := hp <;> rfl

/-! ## Delivery -/

/-- `deliver` reads and writes no receive register and no request, so a return to Idle may come before it or after it. -/
theorem rxToIdle_deliver (m : List Byte) (s : State) : rxToIdle (deliver m s) = deliver m (rxToIdle s) := by
  obtain ⟨hroom, h⟩ | ⟨hfull, h⟩ := deliver_cases m s
  · rw [h, deliver_room (s := rxToIdle s) hroom]; rfl
  · rw [h, deliver_full (s := rxToIdle s) hfull]; rfl

/-! ## Consecutive Frames -/

/-- Addition of nibbles is the sequence counter's addition modulo 16 (R195). -/
theorem nibble_eq_add_one_iff {n m : Nibble} : n = m + 1 ↔ n.toNat = (m.toNat + 1) % 16 := by
  rw [← BitVec.toNat_inj, BitVec.toNat_add]
  rfl

/-- The Consecutive Frame that completes the message: nothing of the accepted registers survives the return to Idle (R196). -/
theorem rxCf_complete {s : State} {n : Nibble} {d : List Byte} (hw : s.rx.state = .waitCf) (hn : n = s.rx.lastSeq + 1)
    (hlen : s.rx.len.toNat ≤ (rxAppended s.rx d).length) :
    rxCf n d s = deliver (rxAppended s.rx d) (rxToIdle s) := by
  rw [rxCf_expected hw hn, rxCfAccept_complete hlen, rxToIdle_deliver]
  rfl

/-- A Consecutive Frame with more to come: what is left is the block count (R196). -/
theorem rxCf_more {s : State} {n : Nibble} {d : List Byte} (hw : s.rx.state = .waitCf) (hn : n = s.rx.lastSeq + 1)
    (hlen : (rxAppended s.rx d).length < s.rx.len.toNat) : rxCf n d s = rxBlockStep (rxAccepted n d s) := by
  rw [rxCf_expected hw hn, rxCfAccept_more hlen]

theorem rxBlockStep_unlimited {s : State} (h : s.snap.blocksize = 0) : rxBlockStep s = s := by
  rw [rxBlockStep, if_pos h]

theorem rxBlockStep_inside {s : State} (h0 : s.snap.blocksize ≠ 0) (h : s.rx.blockCnt + 1 < s.snap.blocksize.toNat) :
    rxBlockStep s = { s with rx := { s.rx with blockCnt := s.rx.blockCnt + 1 } } := by
  rw [rxBlockStep, if_neg h0, if_neg (Nat.not_le_of_lt h)]

theorem rxBlockStep_end {s : State} (h0 : s.snap.blocksize ≠ 0) (h : s.snap.blocksize.toNat ≤ s.rx.blockCnt + 1) :
    rxBlockStep s = { s with fcRequest := true, rx := { s.rx with blockCnt := 0 } } := by
  rw [rxBlockStep, if_neg h0, if_pos h]

/-! ## Frames that carry no PDU for this session -/

theorem rxFrame_of_not_isForMe {a : Addr} {f : Frame} (s : State) (h : isForMe a f = false) : rxFrame a s f = s := by
  rw [rxFrame, h]
  rfl

theorem rxFrame_of_decodePdu_error {a : Addr} {f : Frame} {r : Reject} {s : State} (hme : isForMe a f = true)
    (hd : decodePdu f.data a.pfx.length s.snap.llDataLength = .error r) : rxFrame a s f = rxMalformed f.data s := by
  rw [rxFrame, if_pos hme, hd]

end Sys2Proof.Machine

namespace Sys2Proof

open Machine

/-- Settles O33: with the expected number the frame is either the last one, and then the receiver returns to Idle and delivers
(`rxCf_complete`), or it is not, and then the block is counted (`rxCf_more` with the three cases of `rxBlockStep`). -/
theorem consecutiveFrameAccepted : Obligations.ConsecutiveFrameAccepted := by
  intro n d buf s hw hn hbuf
  have hseq : n = s.rx.lastSeq + 1 := nibble_eq_add_one_iff.mpr hn
  obtain rfl : buf = rxAppended s.rx d := hbuf
  rw [exec_cf]
  refine ⟨fun hlen hroom => ?_, fun hlen hfull => ?_, fun hlen h0 => ?_, fun hlen h0 hin => ?_, fun hlen h0 hend => ?_⟩
  · rw [rxCf_complete hw hseq hlen, deliver_room (s := rxToIdle s) hroom]; rfl
  · rw [rxCf_complete hw hseq hlen, deliver_full (s := rxToIdle s) hfull]; rfl
  · rw [rxCf_more hw hseq hlen, rxBlockStep_unlimited (s := rxAccepted n d s) h0]; rfl
  · rw [rxCf_more hw hseq hlen, rxBlockStep_inside (s := rxAccepted n d s) h0 hin]; rfl
  · rw [rxCf_more hw hseq hlen, rxBlockStep_end (s := rxAccepted n d s) h0 hend]; rfl

/-- Settles O30: a Single Frame is a delivery (`deliver_room`, `deliver_full`), while receiving after the report and the return to
Idle. -/
theorem singleFrameReceived : Obligations.SingleFrameReceived := by
  intro d s
  rw [exec_sf]
  refine ⟨fun hi hroom => ?_, fun hi hfull => ?_, fun hw hroom => ?_, fun hw hfull => ?_⟩
  · rw [rxSf_idle hi, deliver_room hroom]
  · rw [rxSf_idle hi, deliver_full hfull]; rfl
  · rw [rxSf_waitCf hw, List.append_cons s.log,
      deliver_room (s := rxToIdle (s.report .receptionInterruptedBySingleFrame)) hroom]; rfl
  · rw [rxSf_waitCf hw, List.append_cons s.log,
      deliver_full (s := rxToIdle (s.report .receptionInterruptedBySingleFrame)) hfull]; rfl

/-- Settles O31: the registers a First Frame leaves do not depend on those it finds; while receiving the report comes first. -/
theorem firstFrameReceived : Obligations.FirstFrameReceived := by
  intro len d s
  rw [exec_ff]
  refine ⟨fun hi => ?_, fun hw => ?_⟩
  · rw [rxFf_idle hi]; rfl
  · rw [rxFf_waitCf hw]; rfl

/-- Settles O32: the expected number of the statement is the model's (`nibble_eq_add_one_iff`), and any other aborts. -/
theorem consecutiveFrameRejected : Obligations.ConsecutiveFrameRejected := by
  intro n d s
  rw [exec_cf]
  refine ⟨fun hi => ?_, fun hw e he hne => ?_⟩
  · rw [rxCf_idle hi]; rfl
  · obtain rfl : e = s.rx.lastSeq + 1 := nibble_eq_add_one_iff.mpr he
    rw [rxCf_wrong hw hne]; rfl

/-- Settles O34: the three PDUs are one effect with three statuses (`exec_fc`). -/
theorem flowControlReceived : Obligations.FlowControlReceived := by
  intro bs st s p hp
  rw [exec_fc s hp]
  refine ⟨fun hi => ?_, fun hw => ?_⟩
  · rw [rxFc_idle hi]; rfl
  · rw [rxFc_waitCf hw]; rfl

/-- Settles O35: the drain step is `rxFrame` at the state whose port has lost the frame (`step_receives`). -/
theorem framesDroppedOrMalformed : Obligations.FramesDroppedOrMalformed := by
  intro s a f rest hrec
  rw [step_receives hrec]
  refine ⟨fun hnot => ?_, fun hme r hd => ?_⟩
  · rw [rxFrame_of_not_isForMe _ hnot]
  · rw [rxFrame_of_decodePdu_error (s := { s with rxPort := rest }) hme hd]
    refine ⟨fun hi => ?_, fun hw => ?_⟩
    · rw [rxMalformed_idle (s := { s with rxPort := rest }) hi]; rfl
    · rw [rxMalformed_waitCf (s := { s with rxPort := rest }) hw]; rfl

end Sys2Proof

end

section
/-! PROOFS. The transmit side (43_transmit.md R224 to R236): the bytes of the frames it sends, the outcome of each stage of a micro-step
by its guard, and the step that each of them makes. -/

namespace Sys2Proof

/-! ## The bytes of the PDUs sent (R160 to R163) -/

/-- The PCI byte of a Single Frame is its length, which fits the low nibble (R82). -/
theorem mkByte_zero_ofNat {n : Nat} (h : n ≤ 15) : mkByte 0 (BitVec.ofNat 4 n) = BitVec.ofNat 8 n := by
  apply BitVec.eq_of_toNat_eq
  rw [mkByte_toNat, BitVec.toNat_ofNat, BitVec.toNat_ofNat, show BitVec.toNat (0 : Nibble) = 0 from rfl]
  omega

/-- The first PCI byte of a First Frame (R161): `0x10 | (L >> 8)`. -/
theorem mkByte_one_ffLengthHi {n : Nat} (h : n ≤ 4095) :
    mkByte 1 (ffLengthHi (BitVec.ofNat 12 n)) = BitVec.ofNat 8 (0x10 ||| n >>> 8) := by
  have hor : 0x10 ||| n >>> 8 = 0x10 + n / 256 := by
    have hlo : n / 256 < 2 ^ 4 := by omega
    rw [Nat.shiftRight_eq_div_pow]
    exact (Nat.shiftLeft_add_eq_or_of_lt hlo 1).symm
  apply BitVec.eq_of_toNat_eq
  rw [hor, mkByte_toNat, ffLengthHi_toNat, BitVec.toNat_ofNat, BitVec.toNat_ofNat,
    show BitVec.toNat (1 : Nibble) = 1 from rfl]
  omega

/-- The second PCI byte of a First Frame (R161): `L & 0xFF`. -/
theorem ffLengthLo_ofNat (n : Nat) : ffLengthLo (BitVec.ofNat 12 n) = BitVec.ofNat 8 n := by
  apply BitVec.eq_of_toNat_eq
  rw [ffLengthLo_toNat, BitVec.toNat_ofNat, BitVec.toNat_ofNat]
  omega

/-- The PCI byte of a Consecutive Frame (R162), for each of the sixteen sequence numbers. -/
theorem mkByte_two (n : Nibble) : mkByte 2 n = 0x20 ||| n.setWidth 8 := by revert n; decide

theorem encodeSf_of_length_le {m : List Byte} (pfx : List Byte) (h : m.length ≤ 15) :
    encodeSf pfx m = pfx ++ BitVec.ofNat 8 m.length :: m := by
  rw [encodeSf, mkByte_zero_ofNat h]

theorem encodeFf_of_length_le {n : Nat} (pfx chunk : List Byte) (h : n ≤ 4095) :
    encodeFf pfx (BitVec.ofNat 12 n) chunk =
      pfx ++ BitVec.ofNat 8 (0x10 ||| n >>> 8) :: BitVec.ofNat 8 n :: chunk := by
  rw [encodeFf, mkByte_one_ffLengthHi h, ffLengthLo_ofNat]

theorem encodeCf_eq (pfx : List Byte) (sn : Nibble) (chunk : List Byte) :
    encodeCf pfx sn chunk = pfx ++ (0x20 ||| sn.setWidth 8) :: chunk := by
  rw [encodeCf, mkByte_two]

theorem encodeFc_cts (pfx : List Byte) (bs st : Byte) : encodeFc pfx .cts bs st = pfx ++ [0x30, bs, st] := by
  rw [encodeFc, show mkByte 3 FlowStatus.cts.nibble = 0x30 by decide]

namespace Machine

variable {s : State} {fc : FlowControl}

/-! ## The slot (R225) -/

/-- `tx_to_idle()` gives every transmit register its reset value (R222, R340). -/
theorem txToIdle_eq (s : State) : txToIdle s = { s with tx := TxRegs.reset } := rfl

theorem txHandleFc_idle (h : s.tx.state = .idle) : txHandleFc fc s = txFcIdle fc s := by
  rw [txHandleFc, if_pos h]

theorem txHandleFc_cts (h : s.tx.state ≠ .idle) (hf : fc.status = .cts) : txHandleFc fc s = txFcCts fc s := by
  rw [txHandleFc, if_neg h, hf]

theorem txHandleFc_wait (h : s.tx.state ≠ .idle) (hf : fc.status = .wait) : txHandleFc fc s = txFcWait s := by
  rw [txHandleFc, if_neg h, hf]

theorem txHandleFc_ovflw (h : s.tx.state ≠ .idle) (hf : fc.status = .ovflw) : txHandleFc fc s = txFcOverflow s := by
  rw [txHandleFc, if_neg h, hf]

/-- A Wait when none is supported (R227). -/
theorem txFcWait_unsupported (h : s.snap.maxWaitFrames = 0) :
    txFcWait s = txToIdle (s.report .unsupportedWaitFrame) := by
  rw [txFcWait, if_pos h]

/-- A Wait beyond the limit (R227). -/
theorem txFcWait_limit (h0 : s.snap.maxWaitFrames ≠ 0) (h : s.snap.maxWaitFrames ≤ s.tx.waitCnt) :
    txFcWait s = txToIdle (s.report .maximumWaitFramesReached) := by
  rw [txFcWait, if_neg h0, if_pos h]

/-- A Wait within the limit (R227). -/
theorem txFcWait_accepted (h : s.tx.waitCnt < s.snap.maxWaitFrames) :
    txFcWait s = armTxFc { s with tx := { s.tx with waitCnt := s.tx.waitCnt + 1, state := .waitFc } } := by
  rw [txFcWait, if_neg (Nat.ne_zero_of_lt h), if_neg (Nat.not_le_of_lt h)]

/-- A late ContinueToSend (R228). -/
theorem txFcCts_late (h : s.tx.fcTimer.expired s.now s.snap.rxFlowcontrolTimeout = true) : txFcCts fc s = s := by
  rw [txFcCts, if_pos h]

/-- A ContinueToSend in time (R228). -/
theorem txFcCts_inTime (h : s.tx.fcTimer.expired s.now s.snap.rxFlowcontrolTimeout = false) :
    txFcCts fc s = txCtsAccept fc s := by
  rw [txFcCts, h]
  rfl

/-- A ContinueToSend that was waited for restarts the block and the separation time (R228). -/
theorem txCtsAccept_waitFc (h : s.tx.state = .waitFc) :
    txCtsAccept fc s = { s with tx := { s.tx with
      waitCnt := 0, fcTimer := .disarmed, peerBs := fc.bs, peerStminMs := fc.stminMs, blockCnt := 0
      stminTimer := .armed s.now, state := .txCf } } := by
  rw [txCtsAccept, if_pos h]

/-- A ContinueToSend while sending restarts neither (R228). -/
theorem txCtsAccept_txCf (h : s.tx.state = .txCf) :
    txCtsAccept fc s = { s with tx := { s.tx with
      waitCnt := 0, fcTimer := .disarmed, peerBs := fc.bs, peerStminMs := fc.stminMs, state := .txCf } } := by
  have hne : s.tx.state ≠ .waitFc := by rw [h]; decide
  rw [txCtsAccept, if_neg hne]

/-! ## Consecutive Frames (R233 to R235) -/

section
variable {a : Addr} {cap : Nat}

theorem txCfDue_iff :
    txCfDue s = true ↔ s.snap.squashTiming = true ∨ s.tx.stminTimer.expired s.now s.tx.peerStminMs = true := by
  rw [txCfDue, Bool.or_eq_true]

/-- No data byte fits behind the PCI byte (R234). -/
theorem txSendCf_noRoom (h : capCf s.snap.llDataLength a.pfx.length < 1) :
    txSendCf a s = txToIdle (s.report (.untransmittableMessage s.tx.buf.length)) := by
  rw [txSendCf, if_pos h]

/-- The Consecutive Frame that carries the rest of the message (R234). -/
theorem txSendCf_last (hcap : (cap : Int) = capCf s.snap.llDataLength a.pfx.length) (h1 : 1 ≤ cap)
    (hlen : s.tx.buf.length ≤ cap) : txSendCf a s = txToIdle (txSent a cap s) := by
  have hd : s.tx.buf.drop cap = [] := List.drop_eq_nil_of_le hlen
  obtain ⟨hlt, -⟩ | ⟨-, -, h⟩ | ⟨-, hne, -⟩ := txSendCf_cases a s
  · omega
  · rw [h, ← hcap, Int.toNat_natCast]
  · rw [← hcap, Int.toNat_natCast] at hne
    exact absurd hd hne

/-- A Consecutive Frame with more to come (R234, R235). -/
theorem txSendCf_more (hcap : (cap : Int) = capCf s.snap.llDataLength a.pfx.length) (h1 : 1 ≤ cap)
    (hlen : cap < s.tx.buf.length) : txSendCf a s = txBlockEnd (txSent a cap s) := by
  have hd : s.tx.buf.drop cap ≠ [] := List.drop_eq_nil_iff.not.mpr (Nat.not_le_of_lt hlen)
  obtain ⟨hlt, -⟩ | ⟨-, hnil, -⟩ | ⟨-, -, h⟩ := txSendCf_cases a s
  · omega
  · rw [← hcap, Int.toNat_natCast] at hnil
    exact absurd hnil hd
  · rw [h, ← hcap, Int.toNat_natCast]

theorem txBlockEnd_reached (h0 : s.tx.peerBs ≠ 0) (h : s.tx.peerBs.toNat ≤ s.tx.blockCnt) :
    txBlockEnd s = armTxFc { s with tx := { s.tx with state := .waitFc } } := by
  rw [txBlockEnd, if_pos ⟨h0, h⟩]

theorem txBlockEnd_inside (h : s.tx.peerBs = 0 ∨ s.tx.blockCnt < s.tx.peerBs.toNat) : txBlockEnd s = s := by
  have hn : ¬ (s.tx.peerBs ≠ 0 ∧ s.tx.peerBs.toNat ≤ s.tx.blockCnt) := by
    rintro ⟨h0, hle⟩
    exact h.elim h0 (Nat.not_lt_of_le hle)
  rw [txBlockEnd, if_neg hn]

/-- `txSent` with the bytes of its frame written out (R162, R164). -/
theorem txSent_eq (a : Addr) (cap : Nat) (s : State) :
    txSent a cap s = { s with
      tx := { s.tx with
        buf := s.tx.buf.drop cap, seq := s.tx.seq + 1, blockCnt := s.tx.blockCnt + 1, stminTimer := .armed s.now }
      log := s.log ++ [.emit ⟨a.txPhys, a.is29,
        pad (a.pfx ++ (0x20 ||| s.tx.seq.setWidth 8) :: s.tx.buf.take cap) s.snap.llDataLength s.snap.txPadding⟩] } := by
  rw [txSent, makeFrame, encodeCf_eq]

end

/-! ## The step of a micro-step (R220, R223) -/

section
variable {a : Addr} {t : State}

/-- A micro-step that makes progress leaves the tick running (R220). -/
theorem step_of_txStep_true (ht : s.InTransmit a) (h : txStep a s = (t, true)) : step s = .next t := by
  rw [step_transmit ht, txRound, h]

/-- A micro-step without progress ends the tick (R220). -/
theorem step_of_txStep_false (ht : s.InTransmit a) (h : txStep a s = (t, false)) : step s = .next (endTick t) := by
  rw [step_transmit ht, txRound, h]

/-- Without a handshake the micro-step is its state machine's (R223). -/
theorem txStep_of_noHandshake (h : s.NoHandshake) : txStep a s = txAdvance a s := by
  obtain ⟨hreq, hslot, htimer⟩ := h
  rw [txStep_other hreq, txConsumeSlot_none hslot, txTimeoutCheck_id htimer]

/-- An Idle transmitter starts the next queued message (R223). -/
theorem step_startsMessage {msg : TxMessage} {rest : List TxMessage} (ht : s.InTransmit a) (hn : s.NoHandshake)
    (hi : s.tx.state = .idle) (hq : s.txQueue = msg :: rest) :
    step s = .next (txStart a msg { s with txQueue := rest }) := by
  apply step_of_txStep_true ht
  rw [txStep_of_noHandshake hn, txAdvance, hi, hq]

/-- A due Consecutive Frame is sent (R233). -/
theorem step_sendsCf (ht : s.InTransmit a) (hn : s.NoHandshake) (hs : s.tx.state = .txCf) (hd : txCfDue s = true) :
    step s = .next (txSendCf a s) := by
  apply step_of_txStep_true ht
  rw [txStep_of_noHandshake hn, txAdvance, hs, if_pos hd]

/-- A Consecutive Frame that is not due ends the tick (R233). -/
theorem step_cfNotDue (ht : s.InTransmit a) (hn : s.NoHandshake) (hs : s.tx.state = .txCf) (hd : ¬ txCfDue s = true) :
    step s = .next (endTick s) := by
  apply step_of_txStep_false ht
  rw [txStep_of_noHandshake hn, txAdvance, hs, if_neg hd]

end

/-! ## Starting a message (R230 to R232) -/

section
variable {a : Addr} {msg : TxMessage}

/-- A message that fits a Single Frame (R230); its length fits the PCI nibble because `cap_sf` is at most 15 (R170). -/
theorem txStart_single (hk : frameKind s.snap.llDataLength a.pfx.length msg.payload.length = .single) :
    txStart a msg s = s.emit ⟨a.txId msg.target, a.is29,
      pad (a.pfx ++ BitVec.ofNat 8 msg.payload.length :: msg.payload) s.snap.llDataLength s.snap.txPadding⟩ := by
  have hlen : msg.payload.length ≤ 15 := by
    have := frameKind_single hk
    unfold capSf at this
    omega
  rw [txStart, hk, encodeSf_of_length_le _ hlen, makeFrame]

/-- A longer message to the physical target begins with a First Frame (R231). -/
theorem txStart_multi (hk : frameKind s.snap.llDataLength a.pfx.length msg.payload.length = .multi)
    (ht : msg.target = .physical) : txStart a msg s = txFirstFrame a msg.payload s := by
  rw [txStart, hk, ht]

/-- A message that no frame, or no functional frame, can carry (R232). -/
theorem txStart_untransmittable
    (h : (frameKind s.snap.llDataLength a.pfx.length msg.payload.length = .multi ∧ msg.target = .functional)
      ∨ frameKind s.snap.llDataLength a.pfx.length msg.payload.length = .untransmittable) :
    txStart a msg s = s.report (.untransmittableMessage msg.payload.length) := by
  obtain ⟨hk, ht⟩ | hk := h
  · rw [txStart, hk, ht]; rfl
  · rw [txStart, hk]; rfl

/-- The First Frame's bytes and the transmission it opens (R161, R231). -/
theorem txFirstFrame_eq {m : List Byte} {cap : Nat} (hcap : (cap : Int) = capFf s.snap.llDataLength a.pfx.length)
    (hlen : m.length ≤ 4095) :
    txFirstFrame a m s = { s with
      tx := { s.tx with
        buf := m.drop cap, seq := 1, blockCnt := 0, waitCnt := 0, state := .waitFc, fcTimer := .armed s.now }
      log := s.log ++ [.emit ⟨a.txPhys, a.is29,
        pad (a.pfx ++ BitVec.ofNat 8 (0x10 ||| m.length >>> 8) :: BitVec.ofNat 8 m.length :: m.take cap)
          s.snap.llDataLength s.snap.txPadding⟩] } := by
  rw [txFirstFrame, ← hcap, Int.toNat_natCast, encodeFf_of_length_le _ _ hlen]
  rfl

end

end Machine

open Machine

/-- Settles O44, by the frame kind: `txStart_single`, `txStart_multi` with the First Frame written out, `txStart_untransmittable`. -/
theorem queuedMessageStarted : Obligations.QueuedMessageStarted := by
  intro s a msg rest ht hn hi hq hlen
  rw [step_startsMessage ht hn hi hq]
  refine ⟨fun hk => ?_, fun hk htgt => ?_, fun hk => ?_⟩
  · rw [txStart_single (s := { s with txQueue := rest }) hk]
    cases msg.target <;> rfl
  · obtain ⟨-, hnonneg, -⟩ := frameKind_multi hk
    obtain ⟨cap, hcap⟩ := Int.eq_ofNat_of_zero_le hnonneg
    refine ⟨cap, hcap.symm, ?_⟩
    rw [txStart_multi (s := { s with txQueue := rest }) hk htgt,
      txFirstFrame_eq (s := { s with txQueue := rest }) hcap.symm hlen]
  · rw [txStart_untransmittable (s := { s with txQueue := rest }) hk]
    rfl

/-- Settles O45: a due frame is `txSendCf`, by what is left after the chunk and then by the block (`txBlockEnd_reached`,
`txBlockEnd_inside`). -/
theorem consecutiveFrameSent : Obligations.ConsecutiveFrameSent := by
  intro s a ht hn hs due
  have hsends : due → step s = .next (txSendCf a s) := fun hdue => step_sendsCf ht hn hs (txCfDue_iff.mpr hdue)
  refine ⟨fun hnot => ?_, fun hdue hroom => ?_, fun cap hdue hcap h1 => ?_⟩
  · exact step_cfNotDue ht hn hs (txCfDue_iff.not.mpr hnot)
  · rw [hsends hdue, txSendCf_noRoom hroom]
    rfl
  · rw [hsends hdue]
    refine ⟨fun hlen => ?_, fun hlen h0 hend => ?_, fun hlen hin => ?_⟩
    · rw [txSendCf_last hcap h1 hlen, txToIdle_eq, txSent_eq]
    · rw [txSendCf_more hcap h1 hlen, txBlockEnd_reached (s := txSent a cap s) h0 hend, txSent_eq]
      rfl
    · rw [txSendCf_more hcap h1 hlen, txBlockEnd_inside (s := txSent a cap s) hin, txSent_eq]

/-- Settles O38: the request alone decides the micro-step (`txStep_request`). -/
theorem ownFlowControlSentFirst : Obligations.OwnFlowControlSentFirst := by
  intro s a ht hreq
  rw [step_of_txStep_true ht (txStep_request hreq), sendOwnFc, encodeFc_cts]
  rfl

/-- Settles O39: in Idle the status of the Flow Control decides nothing but the report. -/
theorem unexpectedFlowControlIgnored : Obligations.UnexpectedFlowControlIgnored := by
  intro s fc hslot hi
  exact (txConsumeSlot_some hslot).trans (txHandleFc_idle hi)

/-- Settles O40, by the three cases of `txFcWait`. -/
theorem waitHandled : Obligations.WaitHandled := by
  intro s fc hslot hf hs
  have hwait : txConsumeSlot s = txFcWait { s with fcSlot := none } :=
    (txConsumeSlot_some hslot).trans (txHandleFc_wait hs hf)
  refine ⟨fun h0 => ?_, fun h0 hmax => ?_, fun _ hlt => ?_⟩
  · exact hwait.trans (txFcWait_unsupported h0)
  · exact hwait.trans (txFcWait_limit h0 hmax)
  · exact hwait.trans (txFcWait_accepted hlt)

/-- Settles O41: late (`txFcCts_late`), or accepted in one of the two states of a transmission. -/
theorem continueToSendHandled : Obligations.ContinueToSendHandled := by
  intro s fc hslot hf hs
  have hcts : txConsumeSlot s = txFcCts fc { s with fcSlot := none } :=
    (txConsumeSlot_some hslot).trans (txHandleFc_cts hs hf)
  refine ⟨fun hlate => ?_, fun htime hw => ?_, fun htime hc => ?_⟩
  · exact hcts.trans (txFcCts_late hlate)
  · exact (hcts.trans (txFcCts_inTime htime)).trans (txCtsAccept_waitFc hw)
  · exact (hcts.trans (txFcCts_inTime htime)).trans (txCtsAccept_txCf hc)

/-- Settles O42: an Overflow in either state of a transmission is `txFcOverflow`. -/
theorem overflowHandled : Obligations.OverflowHandled := by
  intro s fc hslot hf hs
  exact (txConsumeSlot_some hslot).trans (txHandleFc_ovflw hs hf)

end Sys2Proof

end

section
/-! PROOFS. The host commands (44_host.md R260 to R290): what each guard leaves to do, the outcome of every check in its own terms, and
the whole state each command leaves. -/

namespace Sys2Proof.Machine

/-! ## `SUBMIT` (R264) -/

theorem exec_submitPhys (m : List Byte) (s : State) : exec (.submitPhys m) s = submit m .physical s := rfl

theorem exec_submitFunc (m : List Byte) (s : State) : exec (.submitFunc m) s = submit m .functional s := rfl

theorem prefixLen_some {s : State} {a : Addr} (h : s.addr = some a) : s.prefixLen = a.pfx.length := by
  simp only [State.prefixLen, h]

/-- A message that `SUBMIT` does not reject before it looks at the queue (R264): the length is in range, and a functional message fits
a Single Frame. -/
structure Submittable (m : List Byte) (tgt : Target) (s : State) : Prop where
  pos : 1 ≤ m.length
  le_max : m.length ≤ Config.maxMsgLen
  single : tgt = .functional → (m.length : Int) ≤ capSf s.params.llDataLength s.prefixLen

section
variable {m : List Byte} {tgt : Target} {s : State}

/-- The length check is the first. -/
theorem submitStatus_invalidLength (h : m.length = 0 ∨ Config.maxMsgLen < m.length) :
    submitStatus m tgt s = .invalidLength := by
  rw [submitStatus, if_pos h]

/-- The functional check is the second, whatever the queue holds. -/
theorem submitStatus_functionalMultiFrame (hpos : 1 ≤ m.length) (hmax : m.length ≤ Config.maxMsgLen)
    (hcap : capSf s.params.llDataLength s.prefixLen < m.length) :
    submitStatus m .functional s = .functionalMultiFrame := by
  rw [submitStatus, if_neg (by omega), if_pos ⟨rfl, hcap⟩]

/-- Only the queue decides about a submittable message. -/
theorem submitStatus_of_submittable (h : Submittable m tgt s) :
    submitStatus m tgt s = if s.cfg.txqDepth ≤ s.txQueue.length then .queueFull else .ok := by
  obtain ⟨hpos, hmax, hsingle⟩ := h
  have hlength : ¬ (m.length = 0 ∨ Config.maxMsgLen < m.length) := by omega
  have hfunctional : ¬ (tgt = .functional ∧ capSf s.params.llDataLength s.prefixLen < m.length) :=
    fun ⟨ht, hcap⟩ => absurd hcap (not_lt_of_ge (hsingle ht))
  rw [submitStatus, if_neg hlength, if_neg hfunctional]

variable {a : Addr} (ha : s.addr = some a)
include ha

theorem submit_invalidLength (h : m.length = 0 ∨ Config.maxMsgLen < m.length) :
    submit m tgt s = .next (s.answer .invalidLength) :=
  submit_rejected ha (submitStatus_invalidLength h) (by decide)

theorem submit_functionalMultiFrame (hpos : 1 ≤ m.length) (hmax : m.length ≤ Config.maxMsgLen)
    (hcap : capSf s.params.llDataLength a.pfx.length < m.length) :
    submit m .functional s = .next (s.answer .functionalMultiFrame) := by
  rw [← prefixLen_some ha] at hcap
  exact submit_rejected ha (submitStatus_functionalMultiFrame hpos hmax hcap) (by decide)

/-- Both answers to a submittable message. -/
theorem submit_of_submittable (h : Submittable m tgt s) :
    (s.cfg.txqDepth ≤ s.txQueue.length → submit m tgt s = .next (s.answer .queueFull))
    ∧ (s.txQueue.length < s.cfg.txqDepth →
        submit m tgt s = .next (State.answer { s with txQueue := s.txQueue ++ [⟨m, tgt⟩] } .ok)) := by
  have hstatus := submitStatus_of_submittable h
  refine ⟨fun hfull => ?_, fun hroom => ?_⟩
  · exact submit_rejected ha (hstatus.trans (if_pos hfull)) (by decide)
  · exact submit_ok ha (hstatus.trans (if_neg (Nat.not_le_of_lt hroom)))

end

/-! ## `POLL` and the status outputs (R268, R283, R284, R286) -/

theorem exec_poll (s : State) : exec .poll s = execPoll s := rfl

section
variable {s : State} {a : Addr} (ha : s.addr = some a)
include ha

theorem execPoll_empty (h : s.rxQueue = []) : execPoll s = .next (s.answer .ok .noMessage) := by
  rw [execPoll, whenConfigured_some ha, h]

theorem execPoll_cons {m : List Byte} {rest : List (List Byte)} (h : s.rxQueue = m :: rest) :
    execPoll s = .next (State.answer { s with rxQueue := rest } .ok (.message m)) := by
  rw [execPoll, whenConfigured_some ha, h]

theorem exec_available : exec .available s = .next (s.answer .ok (.bool s.availableOut)) :=
  whenConfigured_some ha _

/-- A command that neither a tick nor a missing session stops runs. -/
theorem betweenTicks_whenConfigured (hp : s.phase = .idle) (o : Out) : betweenTicks s (whenConfigured s o) = o :=
  (betweenTicks_idle hp _).trans (whenConfigured_some ha o)

theorem exec_transmitting (hp : s.phase = .idle) :
    exec .transmitting s = .next (s.answer .ok (.bool s.transmittingOut)) :=
  betweenTicks_whenConfigured ha hp _

theorem exec_idleSleep (hp : s.phase = .idle) : exec .idleSleep s = .next (s.answer .ok (.ms s.idleSleepOut)) :=
  betweenTicks_whenConfigured ha hp _

theorem exec_reset (hp : s.phase = .idle) : exec .reset s = .next ((sessionReset s).answer .ok) :=
  betweenTicks_whenConfigured ha hp _

end

theorem availableOut_eq (s : State) : s.availableOut = decide (s.rxQueue ≠ []) := by
  rw [State.availableOut, Bool.eq_iff_iff]
  simp

theorem transmittingOut_eq (s : State) : s.transmittingOut = decide (s.tx.state ≠ .idle ∨ s.txQueue ≠ []) := by
  rw [State.transmittingOut, Bool.eq_iff_iff]
  simp

/-- The recommended sleep as a choice by the two states: only a receiver in Idle allows more than `SLEEP_ACTIVE` (R286). -/
theorem idleSleepOut_eq (s : State) :
    s.idleSleepOut =
      if s.rx.state = .idle ∧ s.tx.state = .idle then s.cfg.sleepIdle
      else if s.rx.state = .idle ∧ s.tx.state = .waitFc then s.cfg.sleepWaitFc else s.cfg.sleepActive := by
  unfold State.idleSleepOut
  split
  next hrx htx => rw [hrx, htx]; rfl
  next hrx htx => rw [hrx, htx]; rfl
  next hrx htx => rw [hrx, htx]; rfl
  next hrx => rw [hrx]; rfl

/-! ## `RESET` and `CREATE` (R260, R261, R280) -/

/-- The whole state `session_reset()` leaves (R280). -/
theorem sessionReset_eq (s : State) :
    sessionReset s = { s with rx := RxRegs.reset, tx := TxRegs.reset, fcRequest := false, fcSlot := none,
                              txQueue := [], rxQueue := [] } := rfl

theorem exists_requireId_iff {is29 : Bool} {o : Option Nat} :
    (∃ v, requireId is29 o = some v) ↔ ∃ v, o = some v ∧ v ≤ idMax is29 := by
  simp only [requireId_eq_some]

theorem exists_requireByte_iff {o : Option Nat} : (∃ b, requireByte o = some b) ↔ ∃ v, o = some v ∧ v ≤ 0xFF := by
  rw [← not_iff_not, ← requireByte_eq_none, Option.eq_none_iff_forall_ne_some, not_exists]

/-! Which operands each resolver needs in range: it succeeds exactly when they are. -/

section
variable {m : Mode} {is29 : Bool} {f : AddrFields}

theorem exists_resolveNormal_iff :
    (∃ a, resolveNormal m is29 f = some a) ↔
      (∃ v, f.txid = some v ∧ v ≤ idMax is29) ∧ ∃ v, f.rxid = some v ∧ v ≤ idMax is29 := by
  simp [resolveNormal_eq_some, exists_requireId_iff]

theorem exists_resolveNormalFixed_iff :
    (∃ a, resolveNormalFixed f = some a) ↔ (∃ v, f.ta = some v ∧ v ≤ 0xFF) ∧ ∃ v, f.sa = some v ∧ v ≤ 0xFF := by
  simp [resolveNormalFixed_eq_some, exists_requireByte_iff]

theorem exists_resolveExtended_iff :
    (∃ a, resolveExtended m is29 f = some a) ↔
      (∃ v, f.txid = some v ∧ v ≤ idMax is29) ∧ (∃ v, f.rxid = some v ∧ v ≤ idMax is29)
        ∧ (∃ v, f.ta = some v ∧ v ≤ 0xFF) ∧ ∃ v, f.sa = some v ∧ v ≤ 0xFF := by
  simp [resolveExtended_eq_some, exists_requireId_iff, exists_requireByte_iff]

theorem exists_resolveMixed11_iff :
    (∃ a, resolveMixed11 f = some a) ↔
      (∃ v, f.txid = some v ∧ v ≤ idMax false) ∧ (∃ v, f.rxid = some v ∧ v ≤ idMax false)
        ∧ ∃ v, f.ae = some v ∧ v ≤ 0xFF := by
  simp [resolveMixed11_eq_some, exists_requireId_iff, exists_requireByte_iff]

theorem exists_resolveMixed29_iff :
    (∃ a, resolveMixed29 f = some a) ↔
      (∃ v, f.ta = some v ∧ v ≤ 0xFF) ∧ (∃ v, f.sa = some v ∧ v ≤ 0xFF) ∧ ∃ v, f.ae = some v ∧ v ≤ 0xFF := by
  simp [resolveMixed29_eq_some, exists_requireByte_iff]

end

/-- `resolve` succeeds exactly on the legal fields (R121): the operands a resolver needs are those that R122 requires of its mode. -/
theorem exists_resolve_iff (m : Mode) (f : AddrFields) : (∃ a, resolve m f = some a) ↔ legalFields m f := by
  cases m <;>
    simp only [legalFields, requiredFields, List.mem_cons, List.not_mem_nil, or_false, forall_eq_or_imp, forall_eq]
  case normal11 | normal29 => exact exists_resolveNormal_iff
  case normalFixed29 => exact exists_resolveNormalFixed_iff
  case extended11 | extended29 => exact exists_resolveExtended_iff
  case mixed11 => exact exists_resolveMixed11_iff
  case mixed29 => exact exists_resolveMixed29_iff

section
variable {m : Mode} {f : AddrFields} {s : State} (hp : s.phase = .idle)
include hp

/-- A second session is refused, whatever its fields (R261). -/
theorem create_configured {b : Addr} (hb : s.addr = some b) : create m f s = .next (s.answer .illegalCommand) := by
  simp only [create, betweenTicks_idle hp, hb]

theorem create_unresolved (hnone : s.addr = none) (hr : resolve m f = none) :
    create m f s = .next (s.answer .invalidAddressConfig) := by
  simp only [create, betweenTicks_idle hp, hnone, hr]

theorem create_resolved {a : Addr} (hnone : s.addr = none) (hr : resolve m f = some a) :
    create m f s = .next ((sessionReset { s with addr := some a }).answer .ok) := by
  simp only [create, betweenTicks_idle hp, hnone, hr]

end

/-! ## `SET_PARAM` (R290) and the values it takes (R44) -/

section
variable {α : Type} {s : State} {legal : Option α} {write : Params → α → Params} (hp : s.phase = .idle)
include hp

theorem setParam_legal {x : α} (h : legal = some x) :
    setParam legal write s = .next (State.answer { s with params := write s.params x } .ok) := by
  subst h
  exact betweenTicks_idle hp _

theorem setParam_illegal (h : legal = none) : setParam legal write s = .next (s.answer .configValidation) := by
  subst h
  exact betweenTicks_idle hp _

end

section
variable {n : Nat} {v : ParamValue} {c : Config}

theorem paramByte_natCast (h : n ≤ 255) : paramByte (some (n : Int)) = some (BitVec.ofNat 8 n) := if_pos h

theorem paramNat_natCast (h : n ≤ c.paramMax) : paramNat c (some (n : Int)) = some n := if_pos h

theorem paramPadding_natCast (h : n ≤ 255) : paramPadding (some (n : Int)) = some (some (BitVec.ofNat 8 n)) := by
  rw [paramPadding, paramByte_natCast h, Option.map_some]

/-- The illegal bytes: `none` and every integer outside a byte. -/
theorem paramByte_illegal (h : v = none ∨ ∃ z, v = some z ∧ (z < 0 ∨ 255 < z)) : paramByte v = none := by
  obtain rfl | ⟨n | n, rfl, hz⟩ := h
  · rfl
  · rw [Int.ofNat_eq_natCast] at hz
    exact if_neg (by omega)
  · rfl

/-- The illegal flags: `none` and every integer but 0 and 1. -/
theorem paramBool_illegal (h : v = none ∨ ∃ z, v = some z ∧ z ≠ 0 ∧ z ≠ 1) : paramBool v = none := by
  obtain rfl | ⟨n | n, rfl, h0, h1⟩ := h
  · rfl
  · rw [Int.ofNat_eq_natCast] at h0 h1
    exact (if_neg (by omega)).trans (if_neg (by omega))
  · rfl

/-- The illegal naturals: `none`, the negative integers and those above `PARAM_MAX`. -/
theorem paramNat_illegal (h : v = none ∨ ∃ z, v = some z ∧ (z < 0 ∨ (c.paramMax : Int) < z)) : paramNat c v = none := by
  obtain rfl | ⟨n | n, rfl, hz⟩ := h
  · rfl
  · rw [Int.ofNat_eq_natCast] at hz
    exact if_neg (by omega)
  · rfl

/-- The illegal padding bytes: the integers outside a byte, but not `none`. -/
theorem paramPadding_illegal (h : ∃ z, v = some z ∧ (z < 0 ∨ 255 < z)) : paramPadding v = none := by
  obtain ⟨z, rfl, hz⟩ := h
  rw [paramPadding, paramByte_illegal (.inr ⟨z, rfl, hz⟩), Option.map_none]

end

end Sys2Proof.Machine

namespace Sys2Proof

open Machine

/-- Settles O15: after the length and the functional check only the queue is left to decide (`submit_of_submittable`). -/
theorem submitAnswers : Obligations.SubmitAnswers := by
  intro m s a ha
  rw [exec_submitPhys, exec_submitFunc]
  refine ⟨fun hlen => ⟨submit_invalidLength ha hlen, submit_invalidLength ha hlen⟩, fun hpos hmax => ?_⟩
  have hphys : Submittable m .physical s := ⟨hpos, hmax, fun h => by cases h⟩
  obtain ⟨hfull, hroom⟩ := submit_of_submittable ha hphys
  refine ⟨hfull, hroom, submit_functionalMultiFrame ha hpos hmax, fun hcap => ?_⟩
  rw [← prefixLen_some ha] at hcap
  exact submit_of_submittable ha ⟨hpos, hmax, fun _ => hcap⟩

/-- Settles O16, by the two cases of the queue. -/
theorem pollAnswers : Obligations.PollAnswers := by
  intro s a ha
  exact ⟨execPoll_empty ha, fun _ _ h => execPoll_cons ha h⟩

/-- Settles O17: the three outputs in terms of the state, and the order of the sleep times, which every `Config` has. -/
theorem statusOutputsAnswer : Obligations.StatusOutputsAnswer := by
  intro s a ha
  rw [← availableOut_eq, ← transmittingOut_eq, ← idleSleepOut_eq]
  exact ⟨exec_available ha, fun hp => ⟨exec_transmitting ha hp, exec_idleSleep ha hp⟩,
    Nat.le_add_right _ _, Nat.le_add_right _ _⟩

/-- Settles O18: `RESET` is `session_reset()` and an answer, and the registers it leaves are those at reset. -/
theorem resetClearsSession : Obligations.ResetClearsSession := by
  intro s a ha hp
  rw [exec_reset ha hp, sessionReset_eq]
  rfl

/-- Settles O20, for every mode at once (`exec_createInstr`): whether the fields are legal is whether `resolve` succeeds
(`exists_resolve_iff`). -/
theorem createAnswers : Obligations.CreateAnswers := by
  intro m f s hp
  rw [exec_createInstr]
  refine ⟨fun b hb => create_configured hp hb, fun hnone hillegal => ?_, fun hnone hlegal => ?_⟩
  · rw [← exists_resolve_iff, not_exists] at hillegal
    exact create_unresolved hp hnone (Option.eq_none_iff_forall_ne_some.mpr hillegal)
  · obtain ⟨b, hb⟩ := (exists_resolve_iff m f).mpr hlegal
    refine ⟨b, hb, ?_⟩
    rw [create_resolved hp hnone hb, sessionReset_eq]
    rfl

/-- Settles O21: every `SET_PARAM` is `setParam` with its field's validation, so each clause is one of its two answers at a legal or
an illegal value. -/
theorem setParamAnswers : Obligations.SetParamAnswers := by
  intro s v hp
  rw [exec_setStmin, exec_setBlocksize, exec_setSquashTiming, exec_setRxFlowcontrolTimeout,
    exec_setRxConsecutiveFrameTimeout, exec_setTxPadding, exec_setMaxWaitFrames, exec_setLlDataLength]
  refine ⟨?_, ?_, ?_, ?_, ?_, fun hv => ?_, fun hv => ?_, fun hv => ?_, fun hv => ?_⟩
  · rintro n rfl hn
    exact ⟨setParam_legal hp (paramByte_natCast hn), setParam_legal hp (paramByte_natCast hn),
      setParam_legal hp (paramPadding_natCast hn)⟩
  · rintro rfl
    exact setParam_legal hp rfl
  · rintro rfl
    exact setParam_legal hp rfl
  · rintro rfl
    exact setParam_legal hp rfl
  · rintro n rfl hn
    have hlegal := paramNat_natCast hn
    exact ⟨setParam_legal hp hlegal, setParam_legal hp hlegal, setParam_legal hp hlegal, setParam_legal hp hlegal⟩
  · have hillegal := paramByte_illegal hv
    exact ⟨setParam_illegal hp hillegal, setParam_illegal hp hillegal⟩
  · exact setParam_illegal hp (paramPadding_illegal hv)
  · exact setParam_illegal hp (paramBool_illegal hv)
  · have hillegal := paramNat_illegal hv
    exact ⟨setParam_illegal hp hillegal, setParam_illegal hp hillegal, setParam_illegal hp hillegal,
      setParam_illegal hp hillegal⟩

end Sys2Proof

end

section
/-! PROOFS. The decoders against the encoders and against the tables of 30_encoding.md and 41_codec.md: the decoder of a frame
is chosen by the type nibble after the addressing bytes, and each kind's decoder answers by its own fields. -/

namespace Sys2Proof

/-! ## Host command words (R100 to R106) -/

/-- A word whose opcode hands its operands to a reader decodes to what the reader gives. -/
theorem decode_eq_ok_of_operands {α : Type} {p maxLen : Nat} {c : Code} {op : Byte} {operands : Option α} {x : α}
    {mk : α → Instr} (hop : decode p maxLen c = withOperands op operands mk) (hx : operands = some x) :
    decode p maxLen c = .ok (mk x) := by
  rw [hop, hx]
  rfl

/-! ## The kind of a PDU (R81, R150) -/

section
variable (pre : List Byte) {b0 : Byte} (body : List Byte) (maxLen : Nat)

theorem decodePdu_sf (h : b0.toNat / 16 = 0) :
    decodePdu (pre ++ b0 :: body) pre.length maxLen = decodeSf pre.length maxLen b0 body := by
  simp only [decodePdu_append, hiNibble_toNat, h]

theorem decodePdu_ff (h : b0.toNat / 16 = 1) : decodePdu (pre ++ b0 :: body) pre.length maxLen = decodeFf b0 body := by
  simp only [decodePdu_append, hiNibble_toNat, h]

theorem decodePdu_cf (h : b0.toNat / 16 = 2) :
    decodePdu (pre ++ b0 :: body) pre.length maxLen = .ok (.cf (loNibble b0) body) := by
  simp only [decodePdu_append, hiNibble_toNat, h]

theorem decodePdu_fc (h : b0.toNat / 16 = 3) : decodePdu (pre ++ b0 :: body) pre.length maxLen = decodeFc b0 body := by
  simp only [decodePdu_append, hiNibble_toNat, h]

theorem decodePdu_reserved (h : 4 ≤ b0.toNat / 16) :
    decodePdu (pre ++ b0 :: body) pre.length maxLen = .error (.malformed .reservedType) := by
  rw [decodePdu_append, hiNibble_toNat]
  split
  case h_5 => rfl
  all_goals omega

end

/-- A frame with nothing behind its addressing bytes carries no PCI byte (R97). -/
theorem decodePdu_noPci {data : List Byte} {p : Nat} (maxLen : Nat) (h : data.length ≤ p) :
    decodePdu data p maxLen = .error (.malformed .noPci) := by
  rw [decodePdu, List.drop_eq_nil_of_le h]

/-- A longer frame has a PCI byte behind its addressing bytes (R80). -/
theorem exists_eq_append_pci {data : List Byte} {p : Nat} (h : p < data.length) :
    ∃ pre b0 body, data = pre ++ b0 :: body ∧ pre.length = p :=
  ⟨data.take p, data[p], data.drop (p + 1), by rw [← List.drop_eq_getElem_cons h, List.take_append_drop],
    List.length_take_of_le h.le⟩

/-! ## The fields of each kind (R152 to R155) -/

/-- A Single Frame that passes the three checks (R152). -/
theorem decodeSf_of_fits {p maxLen : Nat} {b0 : Byte} {body : List Byte} (hpos : 1 ≤ b0.toNat % 16)
    (hfit : ((b0.toNat % 16 : Nat) : Int) ≤ (maxLen : Int) - 1 - p) (hbody : b0.toNat % 16 ≤ body.length) :
    decodeSf p maxLen b0 body = .ok (.sf (body.take (b0.toNat % 16))) := by
  simp only [decodeSf, loNibble_toNat]
  rw [if_neg (by omega), if_neg (by omega), if_neg (by omega)]

/-- A Flow Control with a legal status and a legal STmin code (R155). -/
theorem decodeFc_of_legal {b0 bs raw : Byte} {tail : List Byte} {status : FlowStatus} {st : StminCode}
    (hstatus : flowStatusOf (loNibble b0) = some status) (hst : stminDecode raw = some st) :
    decodeFc b0 (bs :: raw :: tail) = .ok (fcInstr status bs st) := by
  simp only [decodeFc, hstatus, hst]

/-! ## Each PDU decoder against its encoder (R160 to R163) -/

section
variable (pfx : List Byte) (maxLen : Nat)

theorem decodePdu_encodeSf {d : List Byte} (hpos : 1 ≤ d.length) (h15 : d.length ≤ 15)
    (hfit : (d.length : Int) ≤ (maxLen : Int) - 1 - pfx.length) :
    decodePdu (encodeSf pfx d) pfx.length maxLen = .ok (.sf d) := by
  have hlen : (BitVec.ofNat 8 d.length).toNat = d.length := by rw [BitVec.toNat_ofNat]; omega
  have hlo : d.length % 16 = d.length := by omega
  rw [encodeSf_of_length_le pfx h15, decodePdu_sf _ _ _ (by rw [hlen]; omega)]
  rw [decodeSf_of_fits] <;> rw [hlen, hlo]
  · rw [List.take_length]
  · exact hpos
  · exact hfit

theorem decodePdu_encodeFf {len : FfLength} {d : List Byte} (hlen : d.length ≤ len.toNat) :
    decodePdu (encodeFf pfx len d) pfx.length maxLen = .ok (.ff len d) := by
  have htype : (mkByte 1 (ffLengthHi len)).toNat / 16 = 1 := by rw [← hiNibble_toNat, hiNibble_mkByte]; rfl
  rw [encodeFf, decodePdu_ff _ _ _ htype, decodeFf, ffLength_ofParts, List.take_of_length_le hlen]

theorem decodePdu_encodeCf (sn : Nibble) (d : List Byte) :
    decodePdu (encodeCf pfx sn d) pfx.length maxLen = .ok (.cf sn d) := by
  have htype : (mkByte 2 sn).toNat / 16 = 2 := by rw [← hiNibble_toNat, hiNibble_mkByte]; rfl
  rw [encodeCf, decodePdu_cf _ _ _ htype, loNibble_mkByte]

theorem decodePdu_encodeFc (status : FlowStatus) (bs : Byte) (st : StminCode) :
    decodePdu (encodeFc pfx status bs st.raw) pfx.length maxLen = .ok (fcInstr status bs st) := by
  have htype : (mkByte 3 status.nibble).toNat / 16 = 3 := by rw [← hiNibble_toNat, hiNibble_mkByte]; rfl
  have hstatus : flowStatusOf (loNibble (mkByte 3 status.nibble)) = some status := by
    rw [loNibble_mkByte, flowStatusOf_nibble]
  rw [encodeFc, decodePdu_fc _ _ _ htype, decodeFc_of_legal hstatus (stminDecode_raw st)]

end

/-- Settles O2, by the instruction: the operands of a host command are read back by the reader of their format, and each PDU's
decoder inverts its encoder. -/
theorem decodeOfEncode : Obligations.DecodeOfEncode := by
  intro i pfx maxLen hwf hfit
  cases i with
  | submitPhys m | submitFunc m => exact decode_eq_ok_of_operands rfl (payloadOf_payloadToks (of_decide_eq_true hwf))
  | poll | reset | available | transmitting | idleSleep => rfl
  | process now => rfl
  | setStmin v | setBlocksize v | setSquashTiming v | setRxFlowcontrolTimeout v | setRxConsecutiveFrameTimeout v
  | setTxPadding v | setMaxWaitFrames v | setLlDataLength v => exact decode_eq_ok_of_operands rfl (valueOf_valueTok v)
  | createNormal11 f | createNormal29 f | createNormalFixed29 f | createExtended11 f | createExtended29 f
  | createMixed11 f | createMixed29 f => exact decode_eq_ok_of_operands rfl (addrFieldsOf_addrToks f)
  | sf d =>
    obtain ⟨hpos, h15⟩ := of_decide_eq_true hwf
    exact decodePdu_encodeSf pfx maxLen hpos h15 (hfit d rfl)
  | ff len d =>
    obtain ⟨hlen, -⟩ := of_decide_eq_true hwf
    exact decodePdu_encodeFf pfx maxLen hlen
  | cf sn d => exact decodePdu_encodeCf pfx maxLen sn d
  | fcCts bs st => exact decodePdu_encodeFc pfx maxLen .cts bs st
  | fcWait bs st => exact decodePdu_encodeFc pfx maxLen .wait bs st
  | fcOvflw bs st => exact decodePdu_encodeFc pfx maxLen .ovflw bs st

/-- Settles O3: the bounds that `decodePdu_ok` gives for each kind are those of `wellFormed`, once the frame's length bounds what
follows its PCI byte. -/
theorem decodedPduWellFormed : Obligations.DecodedPduWellFormed := by
  intro data p maxLen i hlen hd
  refine ⟨?_, Machine.decodePdu_isPdu hd⟩
  obtain ⟨b0, body, hdrop, hkind⟩ := decodePdu_ok hd
  have hbody : body.length + 1 ≤ Config.frameMax := by
    have hl := congrArg List.length hdrop
    rw [List.length_drop, List.length_cons] at hl
    omega
  obtain ⟨d, rfl, hpos, h15⟩ | ⟨len, d, rfl, hchunk, hd⟩ | ⟨sn, rfl⟩ | ⟨status, bs, st, rfl⟩ := hkind
  · exact decide_eq_true ⟨hpos, h15⟩
  · exact decide_eq_true ⟨hchunk, by omega⟩
  · exact decide_eq_true hbody
  · cases status <;> rfl

/-! ## Which words are malformed (R97) -/

/-- The word decodes as `MalformedFrame` (R151). -/
def IsMalformed (r : Except Reject Instr) : Prop := ∃ why, r = .error (.malformed why)

@[simp] theorem isMalformed_error (why : Malformed) : IsMalformed (.error (.malformed why)) := ⟨why, rfl⟩

@[simp] theorem not_isMalformed_ok (i : Instr) : ¬ IsMalformed (.ok i) := fun ⟨_, h⟩ => nomatch h

theorem decodeSf_isMalformed_iff {p maxLen : Nat} {b0 : Byte} {body : List Byte} :
    IsMalformed (decodeSf p maxLen b0 body) ↔
      b0.toNat % 16 = 0 ∨ (maxLen : Int) - 1 - p < (b0.toNat % 16 : Nat) ∨ body.length < b0.toNat % 16 := by
  simp only [decodeSf, loNibble_toNat]
  split
  · exact iff_of_true (isMalformed_error _) (.inl ‹_›)
  · split
    · exact iff_of_true (isMalformed_error _) (.inr (.inl ‹_›))
    · split
      · exact iff_of_true (isMalformed_error _) (.inr (.inr ‹_›))
      · exact iff_of_false (not_isMalformed_ok _) (by tauto)

theorem decodeFf_isMalformed_iff {b0 : Byte} {body : List Byte} : IsMalformed (decodeFf b0 body) ↔ body.length < 1 := by
  cases body with
  | nil => simp [decodeFf]
  | cons b1 rest => simp [decodeFf]

theorem decodeFc_isMalformed_iff {b0 : Byte} {body : List Byte} :
    IsMalformed (decodeFc b0 body) ↔ body.length < 2 ∨ 3 ≤ b0.toNat % 16
      ∨ ∃ bs st tail, body = bs :: st :: tail ∧ ((0x80 ≤ st.toNat ∧ st.toNat ≤ 0xF0) ∨ 0xFA ≤ st.toNat) := by
  match body with
  | [] => simp [decodeFc]
  | [bs] => simp [decodeFc]
  | bs :: raw :: tail =>
    have htail : ¬ (bs :: raw :: tail).length < 2 := by simp
    rw [← flowStatusOf_none]
    simp only [htail, false_or, ← stminDecode_none, List.cons.injEq, decodeFc]
    cases hstatus : flowStatusOf (loNibble b0) with
    | none => simp
    | some status =>
      cases hst : stminDecode raw with
      | none => simp [hst]
      | some st => simp [hst]

/-- The rows of R97 for a frame with a PCI byte: the reserved types, and each kind's own. -/
theorem decodePdu_isMalformed_iff (pre : List Byte) (b0 : Byte) (body : List Byte) (maxLen : Nat) :
    IsMalformed (decodePdu (pre ++ b0 :: body) pre.length maxLen) ↔
      4 ≤ b0.toNat / 16
      ∨ (b0.toNat / 16 = 0 ∧ IsMalformed (decodeSf pre.length maxLen b0 body))
      ∨ (b0.toNat / 16 = 1 ∧ IsMalformed (decodeFf b0 body))
      ∨ (b0.toNat / 16 = 3 ∧ IsMalformed (decodeFc b0 body)) := by
  obtain h | h | h | h | h : b0.toNat / 16 = 0 ∨ b0.toNat / 16 = 1 ∨ b0.toNat / 16 = 2 ∨ b0.toNat / 16 = 3
      ∨ 4 ≤ b0.toNat / 16 := by omega
  · rw [decodePdu_sf _ _ _ h]; simp [h]
  · rw [decodePdu_ff _ _ _ h]; simp [h]
  · rw [decodePdu_cf _ _ _ h]; simp [h]
  · rw [decodePdu_fc _ _ _ h]; simp [h]
  · rw [decodePdu_reserved _ _ _ h]; simp [h]

/-- Settles O4: the type nibble chooses the row (`decodePdu_isMalformed_iff`), and each kind's own checks are the rest of it. -/
theorem malformedEncodingsExactly : Obligations.MalformedEncodingsExactly := by
  intro data p maxLen
  have hrow (pre : List Byte) (b0 : Byte) (body : List Byte) := decodePdu_isMalformed_iff pre b0 body maxLen
  simp only [decodeSf_isMalformed_iff, decodeFf_isMalformed_iff, decodeFc_isMalformed_iff] at hrow
  constructor
  · intro h
    obtain hlen | hlen := Nat.lt_or_ge p data.length |>.symm
    · exact .inl hlen
    · obtain ⟨pre, b0, body, rfl, rfl⟩ := exists_eq_append_pci hlen
      exact .inr ⟨pre, b0, body, rfl, rfl, (hrow pre b0 body).mp h⟩
  · rintro (hlen | ⟨pre, b0, body, rfl, rfl, h⟩)
    · exact ⟨_, decodePdu_noPci maxLen hlen⟩
    · exact (hrow pre b0 body).mpr h

/-! ## The fields of a Flow Control (R86, R90) -/

/-- The legal STmin bytes read as the code whose byte they are, with its milliseconds (R90, D17). -/
theorem exists_stminCode {st : Byte} (h : st.toNat ≤ 0x7F ∨ (0xF1 ≤ st.toNat ∧ st.toNat ≤ 0xF9)) :
    ∃ code, stminDecode st = some code ∧ code.toMs = if st.toNat ≤ 0x7F then st.toNat else 0 := by
  unfold stminDecode
  obtain h | h := h
  · refine ⟨_, if_pos h, ?_⟩
    rw [if_pos h, StminCode.toMs, BitVec.toNat_setWidth]
    omega
  · have hms : ¬ st.toNat ≤ 0x7F := by omega
    exact ⟨_, (if_neg hms).trans (if_pos h), (if_neg hms).symm⟩

/-- The three flow statuses by their nibbles (R86). -/
theorem flowStatusOf_loNibble (b0 : Byte) :
    (b0.toNat % 16 = 0 → flowStatusOf (loNibble b0) = some .cts)
    ∧ (b0.toNat % 16 = 1 → flowStatusOf (loNibble b0) = some .wait)
    ∧ (b0.toNat % 16 = 2 → flowStatusOf (loNibble b0) = some .ovflw) := by
  refine ⟨fun h => ?_, fun h => ?_, fun h => ?_⟩ <;> simp only [flowStatusOf, loNibble_toNat, h]

/-- Settles O5: one clause per kind, each read off that kind's decoder. -/
theorem pduFieldsDecode : Obligations.PduFieldsDecode := by
  intro pre b0 body maxLen
  refine ⟨fun h hpos hfit hbody => ?_, fun h b1 rest hb => ?_, fun h => ?_, fun h bs st tail hb hlegal => ?_⟩
  · rw [decodePdu_sf _ _ _ h, decodeSf_of_fits hpos hfit hbody]
  · refine ⟨ffLength b0 b1, ffLength_toNat b0 b1, ?_⟩
    rw [decodePdu_ff _ _ _ h, hb, decodeFf, ← List.take_eq_take_min]
  · exact ⟨loNibble b0, loNibble_toNat b0, decodePdu_cf _ _ _ h⟩
  · obtain ⟨code, hcode, hms⟩ := exists_stminCode hlegal
    obtain ⟨hcts, hwait, hovflw⟩ := flowStatusOf_loNibble b0
    refine ⟨code, raw_of_stminDecode hcode, hms, ?_⟩
    rw [decodePdu_fc _ _ _ h, hb]
    exact ⟨fun h0 => decodeFc_of_legal (hcts h0) hcode, fun h1 => decodeFc_of_legal (hwait h1) hcode,
      fun h2 => decodeFc_of_legal (hovflw h2) hcode⟩

/-- Settles O1: closed words, read by the decoders themselves. -/
theorem specWordsDecode : Obligations.SpecWordsDecode := by
  unfold Obligations.SpecWordsDecode
  decide

end Sys2Proof

end

section
/-! PROOFS. What a host command can do (44_host.md), said once for all of them: every invariant of the commands is a case analysis of
`HostStep`. -/

namespace Sys2Proof.Machine

/-- The eight commands of R104. -/
def IsSetParam (i : Instr) : Prop :=
  ∃ v, i = .setStmin v ∨ i = .setBlocksize v ∨ i = .setSquashTiming v ∨ i = .setRxFlowcontrolTimeout v
    ∨ i = .setRxConsecutiveFrameTimeout v ∨ i = .setTxPadding v ∨ i = .setMaxWaitFrames v ∨ i = .setLlDataLength v

/-- What the host command `i` does from `s` to `t`, with the guards it passed. -/
inductive HostStep (i : Instr) (s t : State) : Prop where
  /-- It only answers. -/
  | answered (st : Status) (v : Value) (eq : t = s.answer st v)
  /-- `SUBMIT` queues its message (R264). -/
  | submitted (m : List Byte) (target : Target) (pos : 1 ≤ m.length) (le_max : m.length ≤ Config.maxMsgLen)
      (room : s.txQueue.length < s.cfg.txqDepth)
      (eq : t = State.answer { s with txQueue := s.txQueue ++ [⟨m, target⟩] } .ok)
  /-- `POLL` takes the oldest message (R268). -/
  | polled (m : List Byte) (rest : List (List Byte)) (queue : s.rxQueue = m :: rest)
      (eq : t = State.answer { s with rxQueue := rest } .ok (.message m))
  /-- `PROCESS` starts a tick (R271, R272). -/
  | started (now : Nat) (session : s.configured = true) (le : s.now ≤ now) (eq : t = startTick now s)
  /-- `RESET` clears the session (R280). -/
  | cleared (eq : t = (sessionReset s).answer .ok)
  /-- `CREATE` opens a session where there is none (R260, R261). -/
  | created (m : Mode) (f : AddrFields) (a : Addr) (none : s.addr = none) (resolved : resolve m f = some a)
      (eq : t = (sessionReset { s with addr := some a }).answer .ok)
  /-- `SET_PARAM` writes a legal value to one field (R290, R44). -/
  | wrote (p : Params) (set : IsSetParam i) (legal : s.params.Legal s.cfg → p.Legal s.cfg)
      (eq : t = State.answer { s with params := p } .ok)

section
variable {i : Instr} {s t : State}

theorem submit_hostStep {m : List Byte} {target : Target} (hx : submit m target s = .next t) : HostStep i s t := by
  obtain ⟨-, hpos, hmax, hroom, e⟩ | ⟨st, e⟩ := submit_next hx
  · exact .submitted m target hpos hmax hroom e
  · exact .answered st .nothing e

theorem execPoll_hostStep (hx : execPoll s = .next t) : HostStep i s t := by
  obtain ⟨m, rest, hq, e⟩ | ⟨st, v, e⟩ := execPoll_next hx
  · exact .polled m rest hq e
  · exact .answered st v e

theorem execProcess_hostStep {now : Nat} (hx : execProcess now s = .next t) : HostStep i s t := by
  obtain ⟨-, ⟨hc, hle, e⟩ | ⟨st, e⟩⟩ := execProcess_next hx
  · exact .started now hc hle e
  · exact .answered st .nothing e

theorem execReset_hostStep (hx : execReset s = .next t) : HostStep i s t := by
  obtain ⟨-, e | ⟨st, e⟩⟩ := execReset_next hx
  · exact .cleared e
  · exact .answered st .nothing e

theorem create_hostStep {m : Mode} {f : AddrFields} (hx : create m f s = .next t) : HostStep i s t := by
  obtain ⟨-, ⟨a, hnone, hr, e⟩ | ⟨st, e⟩⟩ := create_next hx
  · exact .created m f a hnone hr e
  · exact .answered st .nothing e

theorem setParam_hostStep {α : Type} {legal : Option α} {write : Params → α → Params} (hset : IsSetParam i)
    (hx : setParam legal write s = .next t)
    (hwrite : ∀ x, legal = some x → s.params.Legal s.cfg → (write s.params x).Legal s.cfg) : HostStep i s t := by
  obtain ⟨-, ⟨x, hl, e⟩ | ⟨st, e⟩⟩ := setParam_next hx
  · exact .wrote _ hset (hwrite x hl) e
  · exact .answered st .nothing e

/-- Every outcome of every host command. -/
theorem exec_hostStep (hi : i.isPdu = false) (hx : exec i s = .next t) : HostStep i s t := by
  cases i with
  | submitPhys m | submitFunc m => exact submit_hostStep hx
  | poll => exact execPoll_hostStep hx
  | process now => exact execProcess_hostStep hx
  | reset => exact execReset_hostStep hx
  | available => obtain ⟨st, v, e⟩ := execAvailable_next hx; exact .answered st v e
  | transmitting => obtain ⟨st, v, e⟩ := execTransmitting_next hx; exact .answered st v e
  | idleSleep => obtain ⟨st, v, e⟩ := execIdleSleep_next hx; exact .answered st v e
  | setStmin v =>
    exact setParam_hostStep ⟨v, by simp⟩ ((exec_setStmin v s).symm.trans hx) fun _ _ h => h
  | setBlocksize v =>
    exact setParam_hostStep ⟨v, by simp⟩ ((exec_setBlocksize v s).symm.trans hx) fun _ _ h => h
  | setSquashTiming v =>
    exact setParam_hostStep ⟨v, by simp⟩ ((exec_setSquashTiming v s).symm.trans hx) fun _ _ h => h
  | setRxFlowcontrolTimeout v =>
    exact setParam_hostStep ⟨v, by simp⟩ ((exec_setRxFlowcontrolTimeout v s).symm.trans hx)
      fun _ hv ⟨_, hcf, hwait, hll⟩ => ⟨paramNat_le hv, hcf, hwait, hll⟩
  | setRxConsecutiveFrameTimeout v =>
    exact setParam_hostStep ⟨v, by simp⟩ ((exec_setRxConsecutiveFrameTimeout v s).symm.trans hx)
      fun _ hv ⟨hfc, _, hwait, hll⟩ => ⟨hfc, paramNat_le hv, hwait, hll⟩
  | setTxPadding v =>
    exact setParam_hostStep ⟨v, by simp⟩ ((exec_setTxPadding v s).symm.trans hx) fun _ _ h => h
  | setMaxWaitFrames v =>
    exact setParam_hostStep ⟨v, by simp⟩ ((exec_setMaxWaitFrames v s).symm.trans hx)
      fun _ hv ⟨hfc, hcf, _, hll⟩ => ⟨hfc, hcf, paramNat_le hv, hll⟩
  | setLlDataLength v =>
    exact setParam_hostStep ⟨v, by simp⟩ ((exec_setLlDataLength v s).symm.trans hx)
      fun _ hv ⟨hfc, hcf, hwait, _⟩ => ⟨hfc, hcf, hwait, paramNat_le hv⟩
  | createNormal11 f | createNormal29 f | createNormalFixed29 f | createExtended11 f | createExtended29 f
  | createMixed11 f | createMixed29 f => exact create_hostStep hx
  | sf d | ff len d | cf n d | fcCts bs st | fcWait bs st | fcOvflw bs st => cases hi

end

/-- The receive side does the timeout check at the start of a tick (R180). -/
theorem rxTimeoutCheck_frame (s : State) : RxOnly s (rxTimeoutCheck s) ∧ RxGain s (rxTimeoutCheck s) := by
  obtain ⟨-, -, e⟩ | e := rxTimeoutCheck_cases s <;> rw [e]
  · exact ⟨(report_rxOnly _ _).trans (rxToIdle_rxOnly _), ⟨_, rfl, rfl⟩, .inl rfl⟩
  · exact ⟨RxOnly.refl s, ⟨[], (List.append_nil _).symm, rfl⟩, .inl rfl⟩

theorem InputsOnly.eq_with {s t : State} (h : InputsOnly s t) :
    t = { s with
      host1 := t.host1, host2 := t.host2, turn := t.turn, caller := t.caller, driver := t.driver, rxPort := t.rxPort } := by
  obtain ⟨h1, h2, h3, h4, h5, h6, h7, h8, h9, h10, h11, h12, h13, h14⟩ := h
  cases t
  simp_all

end Sys2Proof.Machine

end

section
/-! PROOFS. The invariant of 10_state.md R55: the registers of each side keep their part of it, each shared operation keeps the whole,
and so does every step. -/

namespace Sys2Proof.Machine

/-! ## Timers and registers -/

section
variable {now now' : Nat}

theorem Timer.NotAhead.mono {t : Timer} (h : t.NotAhead now) (hle : now ≤ now') : t.NotAhead now' := by
  cases t with
  | disarmed => trivial
  | armed start => exact Nat.le_trans h hle

theorem RxRegs.Ok.mono {r : RxRegs} (h : r.Ok now) (hle : now ≤ now') : r.Ok now' :=
  { h with timer := h.timer.mono hle }

theorem TxRegs.Ok.mono {c : Config} {t : TxRegs} (h : t.Ok c now) (hle : now ≤ now') : t.Ok c now' :=
  { h with fcTimer := h.fcTimer.mono hle, stminTimer := h.stminTimer.mono hle }

theorem RxRegs.reset_ok (now : Nat) : RxRegs.reset.Ok now where
  idle _ := rfl
  waiting h := nomatch h
  blockCnt := Nat.zero_le _
  timer := trivial

theorem TxRegs.reset_ok (c : Config) (now : Nat) : TxRegs.reset.Ok c now where
  idle _ := rfl
  active h := absurd rfl h
  waiting h := nomatch h
  sending h := nomatch h
  count := Nat.zero_le _
  waits := Nat.zero_le _
  separation := Nat.zero_le _
  fcTimer := trivial
  stminTimer := trivial

/-- The receive registers of a reassembly whose timer was just armed (R55 (1), (5)). -/
theorem RxRegs.ok_of_waitCf {r : RxRegs} (hs : r.state = .waitCf) (htimer : r.cfTimer = .armed now)
    (hbuf : r.buf.length ≤ r.len.toNat) (hcnt : r.blockCnt ≤ 254) : r.Ok now where
  idle h := by rw [hs] at h; cases h
  waiting _ := ⟨by rw [htimer]; rfl, hbuf⟩
  blockCnt := hcnt
  timer := by rw [htimer]; exact Nat.le_refl now

/-- During a reassembly only its bound holds the block counter (R29). -/
theorem RxRegs.Ok.with_blockCnt {r : RxRegs} {n : Nat} (h : r.Ok now) (hs : r.state = .waitCf) (hn : n ≤ 254) :
    RxRegs.Ok now { r with blockCnt := n } :=
  { h with idle := fun hi => (nomatch hs.symm.trans hi), blockCnt := hn }

section
variable {c : Config} {t : TxRegs} (hbuf : t.buf ≠ []) (hcount : t.blockCnt + t.buf.length ≤ Config.maxMsgLen)
  (hwaits : t.waitCnt ≤ c.paramMax) (hsep : t.peerStminMs ≤ 127) (hstmin : t.stminTimer.NotAhead now)
include hbuf hcount hwaits hsep hstmin

/-- The transmit registers of a transmission that has just begun to wait for a Flow Control (R55 (2), (3)). -/
theorem TxRegs.ok_of_waitFc (hs : t.state = .waitFc) (hfc : t.fcTimer = .armed now) : t.Ok c now where
  idle h := by rw [hs] at h; cases h
  active _ := hbuf
  waiting _ := by rw [hfc]; rfl
  sending h := by rw [hs] at h; cases h
  count := hcount
  waits := hwaits
  separation := hsep
  fcTimer := by rw [hfc]; exact Nat.le_refl now
  stminTimer := hstmin

/-- The transmit registers of a transmission that may send (R55 (2), (4)). -/
theorem TxRegs.ok_of_txCf (hs : t.state = .txCf) (hfc : t.fcTimer = .disarmed) (harmed : t.stminTimer.isArmed = true) :
    t.Ok c now where
  idle h := by rw [hs] at h; cases h
  active _ := hbuf
  waiting h := by rw [hs] at h; cases h
  sending _ := ⟨hfc, harmed⟩
  count := hcount
  waits := hwaits
  separation := hsep
  fcTimer := by rw [hfc]; trivial
  stminTimer := hstmin

end

end

theorem Params.reset_legal (c : Config) : (Params.reset c).Legal c := by
  refine ⟨Nat.min_le_right _ _, Nat.min_le_right _ _, Nat.min_le_right _ _, ?_⟩
  exact le_max_of_le_right (by decide : Config.resetLl ≤ 65535)

/-! ## The end of a tick -/

/-- A micro-step without progress has sent any own Flow Control before and has emptied the slot (R223 to R225). -/
theorem handoff_of_txStep_false {a : Addr} {s t : State} (h : txStep a s = (t, false)) :
    t.fcSlot = none ∧ t.fcRequest = false := by
  cases hr : s.fcRequest with
  | true => rw [txStep_request hr] at h; cases h
  | false =>
    rw [txStep_other hr] at h
    obtain ⟨-, -, hreq, hslot, -⟩ := txAdvance_frame a (txTimeoutCheck (txConsumeSlot s))
    rw [h] at hreq hslot
    refine ⟨hslot.trans ?_, hreq.trans ?_⟩
    · rw [txTimeoutCheck_fcSlot, txConsumeSlot_fcSlot]
    · rw [txTimeoutCheck_fcRequest, txConsumeSlot_fcRequest, hr]

/-! ## The shared operations -/

section
variable {s t : State} (h : s.Inv)
include h

/-- What the fetch writes is no part of the invariant. -/
theorem State.Inv.inputs (k : InputsOnly s t) : t.Inv := by
  rw [k.eq_with]
  exact { h with }

theorem State.Inv.answer (st : Status) (v : Value) : (s.answer st v).Inv := { h with }

theorem State.Inv.report (e : ErrorEvent) : (s.report e).Inv := { h with }

theorem State.Inv.emit (f : Frame) : (s.emit f).Inv := { h with }

/-- Inside a tick of a session nothing is asked of the engine's position (R55 (6), R262). -/
theorem State.Inv.with_phase {p : Phase} (hp : p ≠ .idle) (ha : s.addr.isSome = true) :
    State.Inv { s with phase := p } :=
  { h with
    request := fun hr => ⟨(h.request hr).1, hp⟩
    slot := fun fc hfc => ⟨hp, (h.slot fc hfc).2⟩
    session := fun hn => by
      have hnone : s.addr = none := hn
      rw [hnone] at ha
      cases ha }

theorem State.Inv.with_tx {tx : TxRegs} (ht : tx.Ok s.cfg s.now) : State.Inv { s with tx := tx } := { h with tx := ht }

theorem State.Inv.txToIdle : (txToIdle s).Inv := h.with_tx (TxRegs.reset_ok _ _)

theorem State.Inv.rxToIdle : (rxToIdle s).Inv :=
  { h with rx := RxRegs.reset_ok _, request := nofun }

theorem State.Inv.sessionReset : (sessionReset s).Inv :=
  { h with
    rx := RxRegs.reset_ok _, tx := TxRegs.reset_ok _ _, request := nofun, slot := nofun
    txQueue := Nat.zero_le _, txPayloads := nofun, rxQueue := Nat.zero_le _, rxMessages := nofun }

/-- A delivery pushes only where there is room (R41, R212). -/
theorem State.Inv.deliver {m : List Byte} (hm : m.length ≤ Config.maxMsgLen) : (deliver m s).Inv := by
  obtain ⟨hroom, e⟩ | ⟨-, e⟩ := deliver_cases m s
  · rw [e]
    refine { h with rxQueue := ?_, rxMessages := ?_ }
    · rw [List.length_append]; exact hroom
    · exact List.forall_mem_append.mpr ⟨h.rxMessages, by simpa using hm⟩
  · rw [e]; exact h.report _

/-! ## The host commands -/

theorem rxTimeoutCheck_keepsInv : (rxTimeoutCheck s).Inv := by
  obtain ⟨-, -, e⟩ | e := rxTimeoutCheck_cases s <;> rw [e]
  · exact (h.report _).rxToIdle
  · exact h

/-- The start of a tick finds no timer ahead of its time, and opens the drain of a session (R271, R272). -/
theorem startTick_keepsInv {now : Nat} (hc : s.configured = true) (hnow : s.now ≤ now) : (startTick now s).Inv := by
  have h0 : State.Inv { s with now := now, snap := s.params } :=
    { h with rx := h.rx.mono hnow, tx := h.tx.mono hnow, snap := h.params }
  have ha : (rxTimeoutCheck { s with now := now, snap := s.params }).addr.isSome = true := by
    rw [(rxTimeoutCheck_frame _).1.addr]
    exact hc
  exact { (rxTimeoutCheck_keepsInv h0).with_phase (p := .drain) (by decide) ha with }

/-- Every outcome of a host command keeps the invariant, by the guards it passed. -/
theorem hostStep_keepsInv {i : Instr} (hi : HostStep i s t) : t.Inv := by
  cases hi with
  | answered st v e => subst e; exact h.answer st v
  | submitted m target hpos hmax hroom e =>
    subst e
    refine State.Inv.answer (s := { s with txQueue := s.txQueue ++ [⟨m, target⟩] })
      { h with txQueue := ?_, txPayloads := ?_ } _ _
    · rw [List.length_append]; exact hroom
    · exact List.forall_mem_append.mpr ⟨h.txPayloads, by simpa using ⟨hpos, hmax⟩⟩
  | polled m rest hq e =>
    subst e
    have hlen := h.rxQueue
    have hall := h.rxMessages
    rw [hq] at hlen hall
    exact State.Inv.answer (s := { s with rxQueue := rest })
      { h with rxQueue := Nat.le_of_succ_le hlen, rxMessages := fun m hm => hall m (List.mem_cons_of_mem _ hm) } _ _
  | started now hc hle e => subst e; exact startTick_keepsInv h hc hle
  | cleared e => subst e; exact h.sessionReset.answer _ _
  | created m f a hnone hr e =>
    subst e
    have ha : State.Inv { s with addr := some a } :=
      { h with addr := fun b hb => ⟨m, f, hr.trans hb⟩, session := nofun }
    exact ha.sessionReset.answer _ _
  | wrote p hset hlegal e =>
    subst e
    exact State.Inv.answer (s := { s with params := p }) { h with params := hlegal h.params } _ _

/-! ## The receive side -/

theorem rxMalformed_keepsInv (d : List Byte) : (rxMalformed d s).Inv := by
  cases hs : s.rx.state with
  | idle => rw [rxMalformed_idle hs]; exact h.report _
  | waitCf => rw [rxMalformed_waitCf hs]; exact (h.report _).rxToIdle

theorem rxSf_keepsInv {d : List Byte} (hd : d.length ≤ Config.maxMsgLen) : (rxSf d s).Inv := by
  cases hs : s.rx.state with
  | idle => rw [rxSf_idle hs]; exact h.deliver hd
  | waitCf => rw [rxSf_waitCf hs]; exact (h.report _).rxToIdle.deliver hd

/-- A First Frame's chunk is within its declared length, and the request it makes belongs to its reassembly (R55 (1), (6)). -/
theorem rxFfIdle_keepsInv {len : FfLength} {d : List Byte} (hp : s.phase ≠ .idle) (hd : d.length ≤ len.toNat) :
    (rxFfIdle len d s).Inv :=
  { h with rx := RxRegs.ok_of_waitCf rfl rfl hd (Nat.zero_le _), request := fun _ => ⟨rfl, hp⟩ }

theorem rxFf_keepsInv {len : FfLength} {d : List Byte} (hp : s.phase ≠ .idle) (hd : d.length ≤ len.toNat) :
    (rxFf len d s).Inv := by
  cases hs : s.rx.state with
  | idle => rw [rxFf_idle hs]; exact rxFfIdle_keepsInv h hp hd
  | waitCf => rw [rxFf_waitCf hs]; exact rxFfIdle_keepsInv (h.report _).rxToIdle hp hd

/-- The block counter stays below the block size, which fits a byte (R29, R198). -/
theorem rxBlockStep_keepsInv (hp : s.phase ≠ .idle) (hs : s.rx.state = .waitCf) : (rxBlockStep s).Inv := by
  have hbs := s.snap.blocksize.isLt
  by_cases h0 : s.snap.blocksize = 0
  · rw [rxBlockStep_unlimited h0]; exact h
  · obtain hin | hend := Nat.lt_or_ge (s.rx.blockCnt + 1) s.snap.blocksize.toNat
    · rw [rxBlockStep_inside h0 hin]
      exact { h with rx := h.rx.with_blockCnt hs (by omega) }
    · rw [rxBlockStep_end h0 hend]
      exact { h with rx := h.rx.with_blockCnt hs (Nat.zero_le _), request := fun _ => ⟨hs, hp⟩ }

theorem rxAccepted_keepsInv (n : Nibble) (d : List Byte) (hs : s.rx.state = .waitCf) : (rxAccepted n d s).Inv := by
  obtain ⟨-, hbuf⟩ := h.rx.waiting hs
  exact { h with rx := RxRegs.ok_of_waitCf hs rfl (rxAppended_length_le hbuf d) h.rx.blockCnt }

/-- A completed message is no longer than its 12-bit length says (R79, R201). -/
theorem rxCf_keepsInv (n : Nibble) (d : List Byte) (hp : s.phase ≠ .idle) : (rxCf n d s).Inv := by
  cases hs : s.rx.state with
  | idle => rw [rxCf_idle hs]; exact h.report _
  | waitCf =>
    by_cases hn : n = s.rx.lastSeq + 1
    · obtain hlen | hlen := Nat.lt_or_ge (rxAppended s.rx d).length s.rx.len.toNat
      · rw [rxCf_more hs hn hlen]
        exact rxBlockStep_keepsInv (rxAccepted_keepsInv h n d hs) hp hs
      · rw [rxCf_complete hs hn hlen]
        obtain ⟨-, hbuf⟩ := h.rx.waiting hs
        have hmax : s.rx.len.toNat < 2 ^ 12 := s.rx.len.isLt
        exact h.rxToIdle.deliver (Nat.le_trans (rxAppended_length_le hbuf d) (Nat.le_of_lt_succ hmax))
    · rw [rxCf_wrong hs hn]; exact h.rxToIdle.report _

theorem rxFc_keepsInv {fc : FlowControl} (hp : s.phase ≠ .idle) (hms : fc.stminMs ≤ 127) : (rxFc fc s).Inv := by
  have hslot : State.Inv { s with fcSlot := some fc } :=
    { h with slot := fun fc' e => ⟨hp, by cases e; exact hms⟩ }
  cases hs : s.rx.state with
  | idle => rw [rxFc_idle hs]; exact hslot
  | waitCf =>
    rw [rxFc_waitCf hs]
    obtain ⟨-, hbuf⟩ := h.rx.waiting hs
    exact { hslot with rx := RxRegs.ok_of_waitCf hs rfl hbuf h.rx.blockCnt }

/-- A PDU that decoded from a frame keeps the invariant of a running tick (R55). -/
theorem exec_pdu_keepsInv {i : Instr} {data : List Byte} {p maxLen : Nat} (hp : s.phase ≠ .idle)
    (hd : decodePdu data p maxLen = .ok i) (hx : exec i s = .next t) : t.Inv := by
  obtain ⟨b0, body, -, ⟨d, rfl, -, hlen⟩ | ⟨len, d, rfl, hlen, -⟩ | ⟨n, rfl⟩ | ⟨status, bs, st, rfl⟩⟩ := decodePdu_ok hd
  · cases hx; exact rxSf_keepsInv h (Nat.le_trans hlen (by decide))
  · cases hx; exact rxFf_keepsInv h hp hlen
  · cases hx; exact rxCf_keepsInv h n body hp
  · cases status <;> cases hx <;> exact rxFc_keepsInv h hp st.toMs_le

/-! ## The transmit side -/

theorem sendOwnFc_keepsInv (a : Addr) : (sendOwnFc a s).Inv :=
  State.Inv.emit (s := { s with fcRequest := false }) { h with request := nofun } _

/-- An accepted ContinueToSend arms the separation timer where it was not (R228). -/
theorem txCtsAccept_keepsInv {fc : FlowControl} (hs : s.tx.state ≠ .idle) (hms : fc.stminMs ≤ 127) :
    (txCtsAccept fc s).Inv := by
  have hbuf := h.tx.active hs
  have hcount := h.tx.count
  cases hst : s.tx.state with
  | idle => exact absurd hst hs
  | waitFc =>
    rw [txCtsAccept_waitFc hst]
    refine h.with_tx (TxRegs.ok_of_txCf hbuf ?_ (Nat.zero_le _) hms (Nat.le_refl s.now) rfl rfl rfl)
    dsimp only
    omega
  | txCf =>
    rw [txCtsAccept_txCf hst]
    obtain ⟨-, harmed⟩ := h.tx.sending hst
    exact h.with_tx (TxRegs.ok_of_txCf hbuf hcount (Nat.zero_le _) hms h.tx.stminTimer rfl rfl harmed)

/-- A Wait counts only below the limit, which is a legal parameter (R36, R227). -/
theorem txHandleFc_keepsInv {fc : FlowControl} (hms : fc.stminMs ≤ 127) : (txHandleFc fc s).Inv := by
  obtain ⟨-, e⟩ | ⟨-, -, -, e⟩ | ⟨hs, -, -, e⟩ | ⟨-, -, err, e⟩ | ⟨hs, -, hlt, e⟩ | ⟨-, -, e⟩ := txHandleFc_cases fc s
    <;> rw [e]
  · exact h.report _
  · exact h
  · exact txCtsAccept_keepsInv h hs hms
  · exact (h.report _).txToIdle
  · obtain ⟨-, -, hmax, -⟩ := h.snap
    exact h.with_tx (TxRegs.ok_of_waitFc (h.tx.active hs) h.tx.count (Nat.le_trans hlt hmax) h.tx.separation
      h.tx.stminTimer rfl rfl)
  · exact (h.report _).txToIdle

theorem txConsumeSlot_keepsInv : (txConsumeSlot s).Inv := by
  cases hfc : s.fcSlot with
  | none => rw [txConsumeSlot_none hfc]; exact h
  | some fc =>
    rw [txConsumeSlot_some hfc]
    have hslot : State.Inv { s with fcSlot := none } := { h with slot := nofun }
    exact txHandleFc_keepsInv hslot (h.slot fc hfc).2

theorem txTimeoutCheck_keepsInv : (txTimeoutCheck s).Inv := by
  obtain ⟨-, e⟩ | ⟨-, e⟩ := txTimeoutCheck_cases s
  · rw [e]; exact h
  · rw [e]; exact (h.report _).txToIdle

/-- A First Frame leaves something to send, and its message is within `MAX_MSG_LEN` (R55 (2), R171). -/
theorem txFirstFrame_keepsInv {a : Addr} {m : List Byte} (hm : m.length ≤ Config.maxMsgLen)
    (h0 : 0 ≤ capFf s.snap.llDataLength a.pfx.length) (hcap : capFf s.snap.llDataLength a.pfx.length < m.length) :
    (txFirstFrame a m s).Inv := by
  have hrest : m.drop (capFf s.snap.llDataLength a.pfx.length).toNat ≠ [] :=
    List.drop_eq_nil_iff.not.mpr (by omega)
  have hcount : 0 + (m.drop (capFf s.snap.llDataLength a.pfx.length).toNat).length ≤ Config.maxMsgLen := by
    rw [List.length_drop]
    omega
  exact { h with
    tx := TxRegs.ok_of_waitFc hrest hcount (Nat.zero_le _) h.tx.separation h.tx.stminTimer rfl rfl }

theorem txStart_keepsInv {a : Addr} {msg : TxMessage} (hm : msg.payload.length ≤ Config.maxMsgLen) :
    (txStart a msg s).Inv := by
  obtain ⟨-, e⟩ | ⟨hk, -, e⟩ | ⟨-, e⟩ := txStart_cases a msg s <;> rw [e]
  · exact h.emit _
  · obtain ⟨-, h0, hcap⟩ := frameKind_multi hk
    exact txFirstFrame_keepsInv h hm h0 hcap
  · exact h.report _

/-- Each Consecutive Frame takes at least the one byte that the block counter gains (R35, R55). -/
theorem txSent_keepsInv {a : Addr} {cap : Nat} (hs : s.tx.state = .txCf) (h1 : 1 ≤ cap) (hd : s.tx.buf.drop cap ≠ []) :
    (txSent a cap s).Inv := by
  have hcount : s.tx.blockCnt + 1 + (s.tx.buf.drop cap).length ≤ Config.maxMsgLen := by
    have hlen := h.tx.count
    have hcap := List.drop_eq_nil_iff.not.mp hd
    rw [List.length_drop]
    omega
  obtain ⟨hfc, -⟩ := h.tx.sending hs
  exact { h with
    tx := TxRegs.ok_of_txCf hd hcount h.tx.waits h.tx.separation (Nat.le_refl s.now) hs hfc rfl }

theorem txBlockEnd_keepsInv (hs : s.tx.state = .txCf) : (txBlockEnd s).Inv := by
  obtain ⟨-, -, e⟩ | ⟨-, e⟩ := txBlockEnd_cases s
  · rw [e]
    have hactive : s.tx.state ≠ .idle := by rw [hs]; decide
    exact h.with_tx (TxRegs.ok_of_waitFc (h.tx.active hactive) h.tx.count h.tx.waits h.tx.separation h.tx.stminTimer rfl rfl)
  · rw [e]; exact h

theorem txSendCf_keepsInv (a : Addr) (hs : s.tx.state = .txCf) : (txSendCf a s).Inv := by
  obtain ⟨-, e⟩ | ⟨-, -, e⟩ | ⟨h1, hd, e⟩ := txSendCf_cases a s <;> rw [e]
  · exact (h.report _).txToIdle
  · exact { h.txToIdle with }
  · exact txBlockEnd_keepsInv (txSent_keepsInv h hs (by omega) hd) hs

theorem txAdvance_keepsInv (a : Addr) : (txAdvance a s).1.Inv := by
  obtain ⟨msg, rest, -, hq, e⟩ | ⟨hs, -, e⟩ | ⟨-, e⟩ := txAdvance_cases a s <;> rw [e]
  · have hlen := h.txQueue
    have hall := h.txPayloads
    rw [hq] at hlen hall
    have hrest : State.Inv { s with txQueue := rest } :=
      { h with txQueue := Nat.le_of_succ_le hlen, txPayloads := fun m hm => hall m (List.mem_cons_of_mem _ hm) }
    exact txStart_keepsInv hrest (hall msg List.mem_cons_self).2
  · exact txSendCf_keepsInv h a hs
  · exact h

theorem txStep_keepsInv (a : Addr) : (txStep a s).1.Inv := by
  cases hr : s.fcRequest with
  | false => rw [txStep_other hr]; exact txAdvance_keepsInv (txTimeoutCheck_keepsInv (txConsumeSlot_keepsInv h)) a
  | true => rw [txStep_request hr]; exact sendOwnFc_keepsInv h a

/-- The step that ends a tick leaves no handoff behind, so the invariant between ticks holds (R55 (6)). -/
theorem txRound_keepsInv (a : Addr) : (txRound a s).Inv := by
  have hstep := txStep_keepsInv h a
  obtain ⟨t, ht, e⟩ | ⟨t, ht, e⟩ := txRound_cases a s <;> rw [e] <;> rw [ht] at hstep
  · exact hstep
  · obtain ⟨hslot, hreq⟩ := handoff_of_txStep_false ht
    exact { hstep with
      request := fun hr => nomatch hreq.symm.trans hr
      slot := fun fc hfc => nomatch hslot.symm.trans hfc
      session := fun _ => rfl }

end

theorem ownStep_keepsInv {s t : State} (h : s.Inv) (hown : OwnStep s t) : t.Inv := by
  cases hown with
  | quiet s' hi e =>
    obtain rfl | ⟨st, rfl⟩ := e
    · exact h.inputs hi
    · exact (h.inputs hi).answer st _
  | drained s' hi _ ha e =>
    subst e
    exact (h.inputs hi).with_phase (by decide) (by rw [hi.addr]; exact ha)
  | malformed s' hi _ d e =>
    subst e
    exact rxMalformed_keepsInv (h.inputs hi) d
  | round s' hi _ a _ e =>
    subst e
    exact txRound_keepsInv (h.inputs hi) a

end Sys2Proof.Machine

namespace Sys2Proof

open Machine

/-- Settles O53: every register has its reset value, no tick runs and the parameters are legal. -/
theorem powerOnMeetsInvariant : Obligations.PowerOnMeetsInvariant := by
  intro c
  exact {
    rx := RxRegs.reset_ok _, tx := TxRegs.reset_ok _ _, request := nofun, slot := nofun
    txQueue := Nat.zero_le _, txPayloads := nofun, rxQueue := Nat.zero_le _, rxMessages := nofun
    params := Params.reset_legal c, snap := Params.reset_legal c, addr := nofun, session := fun _ => rfl }

/-- Settles O54: a step runs a host command, a received PDU or the block's own step (`step_cases`), and each keeps the invariant. -/
theorem stepKeepsInvariant : Obligations.StepKeepsInvariant := by
  intro s t h hst
  obtain ⟨i, s', w, -, hi, hd, -, hx⟩ | ⟨i, s', a, d, -, hi, hp, -, hd, hx⟩ | hown := step_cases hst
  · exact hostStep_keepsInv (h.inputs hi) (exec_hostStep (decodeHost_isPdu hd) hx)
  · have hp' : s'.phase ≠ .idle := by rw [hi.phase, hp]; decide
    exact exec_pdu_keepsInv (h.inputs hi) hp' hd hx
  · exact ownStep_keepsInv h hown

end Sys2Proof

end

section
/-! PROOFS. What every step keeps (10_state.md R20, R21, R43, R52, R54): each of the three things a step can do (`step_cases`) is shown to
keep it, and the statements are read off. -/

namespace Sys2Proof.Machine

/-! ## The address, the OPEN parameters and the log -/

/-- What every step keeps: the OPEN parameters, the address of a session (R21), and the log as far as it goes, with frames added to it
in the transmit phase only (R54, R184). -/
structure StepFrame (s t : State) : Prop where
  cfg : t.cfg = s.cfg
  addr : ∀ a, s.addr = some a → t.addr = some a
  log : ∃ es, t.log = s.log ++ es ∧ (s.phase ≠ .transmit → framesOf es = [])

section
variable {s t u : State}

theorem StepFrame.of_eq (hcfg : t.cfg = s.cfg) (haddr : t.addr = s.addr) (hlog : t.log = s.log) : StepFrame s t where
  cfg := hcfg
  addr _ ha := haddr.trans ha
  log := ⟨[], by rw [hlog, List.append_nil], fun _ => rfl⟩

theorem StepFrame.after_inputs (h : StepFrame t u) (k : InputsOnly s t) : StepFrame s u where
  cfg := h.cfg.trans k.cfg
  addr a ha := h.addr a (k.addr.trans ha)
  log := by
    have hlog := h.log
    rwa [k.log, k.phase] at hlog

theorem StepFrame.of_rx (h : RxOnly s t) (k : RxGain s t) : StepFrame s t where
  cfg := h.cfg
  addr _ ha := h.addr.trans ha
  log := by
    obtain ⟨es, hes, hframes⟩ := k.log
    exact ⟨es, hes, fun _ => hframes⟩

theorem StepFrame.of_tx (h : TxOnly s t) (k : TxLog s t) (hp : s.phase = .transmit) : StepFrame s t where
  cfg := h.cfg
  addr _ ha := h.addr.trans ha
  log := by
    obtain ⟨es, hes, -⟩ := k
    exact ⟨es, hes, fun hne => absurd hp hne⟩

theorem answer_stepFrame (s : State) (st : Status) (v : Value) : StepFrame s (s.answer st v) := .of_eq rfl rfl rfl

/-- A host command writes an address only where there is none (R261), and adds at most the report of the timeout check to the log. -/
theorem hostStep_stepFrame {i : Instr} (hi : HostStep i s t) : StepFrame s t := by
  cases hi with
  | answered st v e => subst e; exact answer_stepFrame s st v
  | submitted m target hpos hmax hroom e => subst e; exact .of_eq rfl rfl rfl
  | polled m rest hq e => subst e; exact .of_eq rfl rfl rfl
  | started now hc hle e =>
    subst e
    obtain ⟨hrx, hgain⟩ := rxTimeoutCheck_frame { s with now := now, snap := s.params }
    obtain ⟨hcfg, haddr, hlog⟩ := StepFrame.of_rx hrx hgain
    exact ⟨hcfg, haddr, hlog⟩
  | cleared e => subst e; exact .of_eq rfl rfl rfl
  | created m f a hnone hr e =>
    subst e
    exact ⟨rfl, fun b hb => (nomatch hnone.symm.trans hb), ⟨[], (List.append_nil _).symm, fun _ => rfl⟩⟩
  | wrote p hset hlegal e => subst e; exact .of_eq rfl rfl rfl

theorem txRound_stepFrame (a : Addr) (hp : s.phase = .transmit) : StepFrame s (txRound a s) := by
  obtain ⟨hframe, hlog, -⟩ := txStep_frame a s
  obtain ⟨t, ht, e⟩ | ⟨t, ht, e⟩ := txRound_cases a s <;> rw [e] <;> rw [ht] at hframe hlog
  · exact .of_tx hframe hlog hp
  · obtain ⟨hcfg, haddr, hes⟩ := StepFrame.of_tx hframe hlog hp
    exact ⟨hcfg, haddr, hes⟩

theorem ownStep_stepFrame (h : OwnStep s t) : StepFrame s t := by
  cases h with
  | quiet s' hi e =>
    obtain rfl | ⟨st, rfl⟩ := e
    · exact (StepFrame.of_eq rfl rfl rfl).after_inputs hi
    · exact (answer_stepFrame s' st _).after_inputs hi
  | drained s' hi hp ha e => subst e; exact StepFrame.after_inputs (t := s') (.of_eq rfl rfl rfl) hi
  | malformed s' hi hp d e =>
    subst e
    obtain ⟨hrx, hgain⟩ := rxMalformed_frame d s'
    exact (StepFrame.of_rx hrx hgain).after_inputs hi
  | round s' hi hp a ha e => subst e; exact (txRound_stepFrame a (hi.phase.trans hp)).after_inputs hi

theorem step_stepFrame (h : step s = .next t) : StepFrame s t := by
  obtain ⟨i, s', w, -, hi, hd, -, hx⟩ | ⟨i, s', a, d, -, hi, -, -, hd, hx⟩ | hown := step_cases h
  · exact (hostStep_stepFrame (exec_hostStep (decodeHost_isPdu hd) hx)).after_inputs hi
  · obtain ⟨hrx, hgain⟩ := exec_pdu_frame (decodePdu_isPdu hd) hx
    exact (StepFrame.of_rx hrx hgain).after_inputs hi
  · exact ownStep_stepFrame hown

/-! ## The parameters and the running tick -/

/-- Every command but `SET_PARAM` leaves the parameters (R43). -/
theorem hostStep_params {i : Instr} (hi : HostStep i s t) : IsSetParam i ∨ t.params = s.params := by
  cases hi with
  | wrote p hset hlegal e => exact .inl hset
  | started now hc hle e => subst e; exact .inr (rxTimeoutCheck_frame { s with now := now, snap := s.params }).1.params
  | answered | submitted | polled | cleared | created => subst t; exact .inr rfl

/-- What a running tick keeps (R52). -/
structure TickFrame (s t : State) : Prop where
  snap : t.snap = s.snap
  now : t.now = s.now
  params : t.params = s.params

theorem TickFrame.after_inputs (h : TickFrame t u) (k : InputsOnly s t) : TickFrame s u :=
  ⟨h.snap.trans k.snap, h.now.trans k.now, h.params.trans k.params⟩

theorem RxOnly.tickFrame (h : RxOnly s t) : TickFrame s t := ⟨h.snap, h.now, h.params⟩

theorem ownStep_tickFrame (h : OwnStep s t) : TickFrame s t := by
  cases h with
  | quiet s' hi e =>
    have hs' : TickFrame s' t := by obtain rfl | ⟨st, rfl⟩ := e <;> exact ⟨rfl, rfl, rfl⟩
    exact hs'.after_inputs hi
  | drained s' hi hp ha e => subst e; exact TickFrame.after_inputs (t := s') ⟨rfl, rfl, rfl⟩ hi
  | malformed s' hi hp d e => subst e; exact (rxMalformed_frame d s').1.tickFrame.after_inputs hi
  | round s' hi hp a ha e =>
    subst e
    obtain ⟨hframe, -, -⟩ := txStep_frame a s'
    obtain ⟨t, ht, e⟩ | ⟨t, ht, e⟩ := txRound_cases a s' <;> rw [e] <;> rw [ht] at hframe
    · exact TickFrame.after_inputs ⟨hframe.snap, hframe.now, hframe.params⟩ hi
    · exact TickFrame.after_inputs (t := s') ⟨hframe.snap, hframe.now, hframe.params⟩ hi

/-- A command that runs inside a tick is one of R323, and writes queues only. -/
theorem exec_concurrent_tickFrame {i : Instr} (hc : i.concurrent = true) (hx : exec i s = .next t) : TickFrame s t := by
  obtain ⟨e, -, -⟩ := exec_concurrent_frame hc hx
  rw [e]
  exact ⟨rfl, rfl, rfl⟩

/-! ## The commands a thread issues (R100, R323) -/

theorem State.Issues.inputs {who : Agent} {w : List Tok} (h : s.Issues who w t) : InputsOnly s t := by
  obtain ⟨-, -, hl⟩ := h
  cases who with
  | first => obtain ⟨rest, -, rfl⟩ := hl; constructor <;> rfl
  | second => obtain ⟨rest, -, rfl⟩ := hl; constructor <;> rfl

/-- The step of a thread that issues a command runs it at the state without the word. -/
theorem step_issues {who : Agent} {w : List Tok} {i : Instr} (h : s.Issues who w t) (hd : decodeHost w = .ok i) :
    step s = exec i t := by
  obtain rfl := h.caller
  rw [step, fetch_issues h, fetchCommand, hd]

theorem exists_whenConfigured_next {o : Out} (h : ∃ t, o = .next t) : ∃ t, whenConfigured s o = .next t := by
  cases ha : s.addr with
  | none => exact ⟨_, whenConfigured_none ha o⟩
  | some a => rw [whenConfigured_some ha]; exact h

/-! The commands of R323 always answer. -/

theorem exists_submit_next (m : List Byte) (target : Target) (s : State) : ∃ t, submit m target s = .next t := by
  apply exists_whenConfigured_next
  split
  · exact ⟨_, rfl⟩
  · exact ⟨_, rfl⟩

theorem exists_execPoll_next (s : State) : ∃ t, execPoll s = .next t := by
  apply exists_whenConfigured_next
  split
  · exact ⟨_, rfl⟩
  · exact ⟨_, rfl⟩

theorem exists_execAvailable_next (s : State) : ∃ t, execAvailable s = .next t :=
  exists_whenConfigured_next ⟨_, rfl⟩

end

end Sys2Proof.Machine

namespace Sys2Proof

open Machine

/-- Settles O55: the address and the OPEN parameters are in the frame of every step (`step_stepFrame`). -/
theorem addressImmutable : Obligations.AddressImmutable := by
  intro s t h
  obtain ⟨hcfg, haddr, -⟩ := step_stepFrame h
  exact ⟨hcfg, haddr⟩

/-- Settles O57: the frame of every step (`step_stepFrame`) has what is added to the log, outside the transmit phase without frames. -/
theorem stepExtendsLog : Obligations.StepExtendsLog := by
  intro s t h
  obtain ⟨-, -, es, hes, hframes⟩ := step_stepFrame h
  refine ⟨⟨es, hes⟩, fun hp => ?_⟩
  rw [hes, framesOf_append, hframes hp, List.append_nil]

/-- Settles O56: of the three things a step can do only a command writes the parameters, and inside a tick only a command of R323
runs. -/
theorem onlySetParamWritesParams : Obligations.OnlySetParamWritesParams := by
  intro s t h
  obtain ⟨i, s', w, hf, hi, hd, hc, hx⟩ | ⟨i, s', a, d, -, hi, -, -, hd, hx⟩ | hown := step_cases h
  · have htick (hconc : i.concurrent = true) : TickFrame s t := (exec_concurrent_tickFrame hconc hx).after_inputs hi
    refine ⟨fun hne => ?_, fun hp => ?_⟩
    · obtain hidle | hconc := hc
      · refine ⟨hidle, ?_⟩
        obtain ⟨v, hv⟩ | he := hostStep_params (exec_hostStep (decodeHost_isPdu hd) hx)
        · refine ⟨s', v, ?_⟩
          rw [hf]
          simpa using hv
        · exact absurd (he.trans hi.params) hne
      · exact absurd (htick hconc).params hne
    · obtain ⟨hsnap, hnow, hparams⟩ := htick (hc.resolve_left hp)
      exact ⟨hsnap, hnow, hparams⟩
  · obtain ⟨hsnap, hnow, hparams⟩ := (exec_pdu_frame (decodePdu_isPdu hd) hx).1.tickFrame.after_inputs hi
    exact ⟨fun hne => absurd hparams hne, fun _ => ⟨hsnap, hnow, hparams⟩⟩
  · obtain ⟨hsnap, hnow, hparams⟩ := ownStep_tickFrame hown
    exact ⟨fun hne => absurd hparams hne, fun _ => ⟨hsnap, hnow, hparams⟩⟩

/-- Settles O47: inside a tick only a round of the transmit phase ends it, and it does so with a micro-step without progress
(`handoff_of_txStep_false`). -/
theorem handoffLivesOneTick : Obligations.HandoffLivesOneTick := by
  intro s t h hp hend
  obtain ⟨i, s', w, -, hi, hd, hc, hx⟩ | ⟨i, s', a, d, -, hi, -, -, hd, hx⟩ | hown := step_cases h
  · obtain ⟨e, -, -⟩ := exec_concurrent_frame (hc.resolve_left hp) hx
    rw [e, hi.phase] at hend
    exact absurd hend hp
  · obtain ⟨hrx, -⟩ := exec_pdu_frame (decodePdu_isPdu hd) hx
    exact absurd ((hrx.phase.trans hi.phase).symm.trans hend) hp
  · cases hown with
    | quiet s' hi e =>
      have hphase : t.phase = s'.phase := by obtain rfl | ⟨st, rfl⟩ := e <;> rfl
      exact absurd ((hphase.trans hi.phase).symm.trans hend) hp
    | drained s' hi _ ha e => rw [e] at hend; cases hend
    | malformed s' hi _ d e =>
      obtain ⟨hrx, -⟩ := rxMalformed_frame d s'
      rw [e, hrx.phase, hi.phase] at hend
      exact absurd hend hp
    | round s' hi _ a ha e =>
      obtain ⟨hframe, -, -⟩ := txStep_frame a s'
      obtain ⟨u, hu, e'⟩ | ⟨u, hu, e'⟩ := txRound_cases a s' <;> rw [e'] at e <;> subst e
      · rw [hu] at hframe
        exact absurd ((hframe.phase.trans hi.phase).symm.trans hend) hp
      · obtain ⟨hslot, hreq⟩ := handoff_of_txStep_false hu
        exact ⟨hslot, hreq⟩

/-- Settles O49: the fetch finds the word (`fetch_issues`), and the thread that issued it is already the caller. -/
theorem stepRunsHostCommand : Obligations.StepRunsHostCommand :=
  fun _ _ _ _ _ hi hd => step_issues hi hd

/-- Settles O51: the step runs the command at the state without its word (`step_issues`), and each command's frame says what it
writes there. -/
theorem concurrentCommandsTouchOnlyQueues : Obligations.ConcurrentCommandsTouchOnlyQueues := by
  intro s s' who w i hi hd
  rw [step_issues hi hd, ← hi.inputs.txQueue, ← hi.inputs.rxQueue, ← hi.inputs.results]
  have hsubmit (m : List Byte) (target : Target) : ∃ r q, submit m target s' = .next { s' with
      txQueue := q, results := s'.results ++ [r] } ∧ (q = s'.txQueue ∨ q = s'.txQueue ++ [⟨m, target⟩]) := by
    obtain ⟨t, ht⟩ := exists_submit_next m target s'
    obtain ⟨r, q, rfl, hq⟩ := submit_frame ht
    exact ⟨r, q, ht, hq⟩
  refine ⟨?_, ?_, ?_⟩
  · rintro m target (⟨rfl, rfl⟩ | ⟨rfl, rfl⟩)
    · exact hsubmit m .physical
    · exact hsubmit m .functional
  · rintro rfl
    obtain ⟨t, ht⟩ := exists_execPoll_next s'
    obtain ⟨r, q, rfl, hq⟩ := execPoll_frame ht
    exact ⟨r, q, ht, hq⟩
  · rintro rfl
    obtain ⟨t, ht⟩ := exists_execAvailable_next s'
    obtain ⟨st, v, rfl⟩ := execAvailable_next ht
    exact ⟨_, ht⟩

/-- Settles O50: the turn of another thread aside (`fetch_engineMoves`), the drain takes the frame and finds its PDU. -/
theorem stepRunsReceivedPdu : Obligations.StepRunsReceivedPdu := by
  intro s a f rest i hmoves hp ha hport hduty hme hd
  have hne : s.phase ≠ .idle := by rw [hp]; decide
  rw [step, fetch_engineMoves hmoves hne]
  simp only [fetchEngine, hp, ha, fetchDrain, hport, fetchFrame, hduty, hme, hd, Bool.true_eq_false, if_false]

end Sys2Proof

end

section
/-! PROOFS. Addressing (40_addressing.md R121 to R137): when the resolver fails, the addresses it builds, and that each mode's filter
accepts the frames sent to the address it was built with. -/

namespace Sys2Proof.Machine

section
variable {m : Mode} {is29 : Bool} {tx rx : Nat} {pf pf' : Byte} {pfx : List Byte} {ta sa ae : Option Byte}

/-! ## The filter on the session's own IDs (R133 to R137) -/

theorem matchesConfiguredId_own (data : List Byte) :
    matchesConfiguredId (configuredIds m is29 tx rx pfx ta sa ae) ⟨rx, is29, data⟩ = true :=
  (matchesConfiguredId_iff _ _).mpr ⟨rfl, rfl⟩

theorem matchesConfiguredId_wrongWidth {a : Addr} {fr : Frame} (h : fr.ext = !a.is29) : matchesConfiguredId a fr = false := by
  simp [matchesConfiguredId, h]

/-- Either of the two patterns, over source and target, is an ID of the session (R134, R137): a receive ID swaps them. -/
theorem matchesPatternId_own {x ta sa : Byte} {ae : Option Byte} (hx : x = pf ∨ x = pf') (data : List Byte) :
    matchesPatternId pf pf' (patternIds m pf pf' ta sa pfx ae) ⟨fixedId x sa ta, true, data⟩ = true := by
  have hta := ta.isLt
  have hsa := sa.isLt
  have hxlt := x.isLt
  have hid := fixedId_eq x sa ta
  refine (matchesPatternId_iff pf pf' sa ta _ rfl rfl).mpr ⟨rfl, ?_, ?_, ?_⟩
  · have hpattern : fixedId x sa ta / 65536 % 256 = x.toNat := by omega
    obtain rfl | rfl := hx
    · exact .inl hpattern
    · exact .inr hpattern
  · show fixedId x sa ta / 256 % 256 = sa.toNat
    omega
  · show fixedId x sa ta % 256 = ta.toNat
    omega

theorem leadsWith_cons (b : Byte) (id : Nat) (ext : Bool) (data : List Byte) :
    leadsWith (some b) ⟨id, ext, b :: data⟩ = true :=
  (leadsWith_iff b _).mpr ⟨data, rfl⟩

/-- The filter of the extended modes and of `Mixed11` on its own ID and leading byte (R135, R136). -/
theorem matchesConfiguredId_leadsWith_own (b : Byte) (data : List Byte) :
    (matchesConfiguredId (configuredIds m is29 tx rx pfx ta sa ae) ⟨rx, is29, b :: data⟩
      && leadsWith (some b) ⟨rx, is29, b :: data⟩) = true :=
  Bool.and_eq_true_iff.mpr ⟨matchesConfiguredId_own _, leadsWith_cons b _ _ _⟩

/-- The filter of `Mixed29` on either of its own IDs and its leading byte (R137). -/
theorem matchesPatternId_leadsWith_own {x ta sa : Byte} {ae : Option Byte} (hx : x = pf ∨ x = pf') (b : Byte)
    (data : List Byte) :
    (matchesPatternId pf pf' (patternIds m pf pf' ta sa pfx ae) ⟨fixedId x sa ta, true, b :: data⟩
      && leadsWith (some b) ⟨fixedId x sa ta, true, b :: data⟩) = true :=
  Bool.and_eq_true_iff.mpr ⟨matchesPatternId_own hx _, leadsWith_cons b _ _ _⟩

end

end Sys2Proof.Machine

namespace Sys2Proof

open Machine

/-- Settles O11: `resolve` succeeds exactly on the legal fields (`exists_resolve_iff`). -/
theorem resolveValidates : Obligations.ResolveValidates := by
  intro m f
  rw [← exists_resolve_iff, not_exists, Option.eq_none_iff_forall_ne_some]

/-- Settles O12, mode by mode: each resolver on its required operands, with the pattern IDs computed from their constants. -/
theorem resolveDerives : Obligations.ResolveDerives := by
  intro tx rx ta sa ae f
  refine ⟨fun htx hrx ftx frx => ?_, fun htx hrx ftx frx => ?_, fun fta fsa => ?_⟩
  · have htx' : requireId false f.txid = some tx := requireId_eq_some.mpr ⟨ftx, htx⟩
    have hrx' : requireId false f.rxid = some rx := requireId_eq_some.mpr ⟨frx, hrx⟩
    exact ⟨resolveNormal_eq_some.mpr ⟨tx, rx, htx', hrx', rfl⟩,
      fun fta fsa => resolveExtended_eq_some.mpr
        ⟨tx, rx, ta, sa, htx', hrx', requireByte_eq_some.mpr fta, requireByte_eq_some.mpr fsa, rfl⟩,
      fun fae => resolveMixed11_eq_some.mpr ⟨tx, rx, ae, htx', hrx', requireByte_eq_some.mpr fae, rfl⟩⟩
  · have htx' : requireId true f.txid = some tx := requireId_eq_some.mpr ⟨ftx, htx⟩
    have hrx' : requireId true f.rxid = some rx := requireId_eq_some.mpr ⟨frx, hrx⟩
    exact ⟨resolveNormal_eq_some.mpr ⟨tx, rx, htx', hrx', rfl⟩,
      fun fta fsa => resolveExtended_eq_some.mpr
        ⟨tx, rx, ta, sa, htx', hrx', requireByte_eq_some.mpr fta, requireByte_eq_some.mpr fsa, rfl⟩⟩
  · have hta := requireByte_eq_some.mpr fta
    have hsa := requireByte_eq_some.mpr fsa
    exact ⟨resolveNormalFixed_eq_some.mpr ⟨ta, sa, hta, hsa, rfl⟩,
      fun fae => resolveMixed29_eq_some.mpr ⟨ta, sa, ae, hta, hsa, requireByte_eq_some.mpr fae, rfl⟩⟩

/-- Settles O14, mode by mode: the configured ID or either pattern matches its own session, a frame to this session leads
with the byte the filter wants, and the wrong width fails the ID check. -/
theorem filterAcceptsOwnIds : Obligations.FilterAcceptsOwnIds := by
  intro m f a d h
  cases m with
  | normal11 | normal29 =>
    obtain ⟨tx, rx, -, -, rfl⟩ := resolveNormal_eq_some.mp h
    exact ⟨matchesConfiguredId_own d, matchesConfiguredId_own d, fun _ _ => matchesConfiguredId_wrongWidth rfl⟩
  | normalFixed29 =>
    obtain ⟨ta, sa, -, -, rfl⟩ := resolveNormalFixed_eq_some.mp h
    exact ⟨matchesPatternId_own (.inl rfl) d, matchesPatternId_own (.inr rfl) d, fun _ _ => rfl⟩
  | extended11 | extended29 =>
    obtain ⟨tx, rx, ta, sa, -, -, -, -, rfl⟩ := resolveExtended_eq_some.mp h
    exact ⟨matchesConfiguredId_leadsWith_own sa d, matchesConfiguredId_leadsWith_own sa d,
      fun _ _ => by simp [isForMe, configuredIds, matchesConfiguredId_wrongWidth]⟩
  | mixed11 =>
    obtain ⟨tx, rx, ae, -, -, -, rfl⟩ := resolveMixed11_eq_some.mp h
    exact ⟨matchesConfiguredId_leadsWith_own ae d, matchesConfiguredId_leadsWith_own ae d,
      fun _ _ => by simp [isForMe, configuredIds, matchesConfiguredId_wrongWidth]⟩
  | mixed29 =>
    obtain ⟨ta, sa, ae, -, -, -, rfl⟩ := resolveMixed29_eq_some.mp h
    exact ⟨matchesPatternId_leadsWith_own (.inl rfl) ae d, matchesPatternId_leadsWith_own (.inr rfl) ae d,
      fun _ _ => rfl⟩

end Sys2Proof

end

section
/-! PROOFS. The values and codes of the spec's tables, and the host commands at the two lifecycle states and at a running tick
(44_host.md R262 to R281). -/

namespace Sys2Proof.Machine

section
variable {s : State} {a : Addr} {now : Nat}

/-- `PROCESS` of a session, between ticks, starts a tick unless the time decreases (R271, R272). -/
theorem exec_process (ha : s.addr = some a) (hp : s.phase = .idle) :
    exec (.process now) s = if now < s.now then .refused .timeDecreased else .next (startTick now s) :=
  betweenTicks_whenConfigured ha hp _

theorem exec_process_next (ha : s.addr = some a) (hp : s.phase = .idle) (hnow : s.now ≤ now) :
    exec (.process now) s = .next (startTick now s) := by
  rw [exec_process ha hp, if_neg (Nat.not_lt_of_le hnow)]

/-- The start of a tick that finds the reassembly timed out (R180). -/
theorem startTick_timeout
    (h : s.rx.state = .waitCf ∧ s.rx.cfTimer.expired now s.params.rxConsecutiveFrameTimeout = true) :
    startTick now s = { s with
      now := now, snap := s.params, phase := .drain, driver := s.caller, rx := RxRegs.reset, fcRequest := false
      log := s.log ++ [.report .consecutiveFrameTimeout] } := by
  rw [startTick, rxTimeoutCheck, if_pos h]
  rfl

/-- The start of a tick that finds no timeout (R180). -/
theorem startTick_noTimeout
    (h : ¬ (s.rx.state = .waitCf ∧ s.rx.cfTimer.expired now s.params.rxConsecutiveFrameTimeout = true)) :
    startTick now s = { s with now := now, snap := s.params, phase := .drain, driver := s.caller } := by
  rw [startTick, rxTimeoutCheck, if_neg h]

end

/-- Clearing a cleared session changes nothing (R281). -/
theorem sessionReset_sessionReset_answer (s : State) (st : Status) (v : Value) :
    sessionReset ((sessionReset s).answer st v) = (sessionReset s).answer st v := rfl

end Sys2Proof.Machine

namespace Sys2Proof

open Machine

/-- Settles O8: in this range `cap_sf` is `ll - 1 - p`, and one byte less is left beside a First Frame's two PCI bytes. -/
theorem everyMessageFramedInRange : Obligations.EveryMessageFramedInRange := by
  intro ll p len hlo hhi
  have hsf : capSf ll p = (ll : Int) - 1 - p := by unfold capSf; omega
  have hcf : 1 ≤ capCf ll p := by unfold capCf; omega
  have hff : capFf ll p = capSf ll p - 1 := by rw [hsf, capFf]; omega
  obtain hle | hlt := le_or_gt (len : Int) (capSf ll p)
  · have hk : frameKind ll p len = .single := if_pos hle
    rw [hk]
    exact ⟨by decide, iff_of_true rfl (by omega), nofun⟩
  · have hk : frameKind ll p len = .multi :=
      (if_neg (not_le_of_gt hlt)).trans (if_pos ⟨hcf, by omega, by omega⟩)
    rw [hk]
    exact ⟨by decide, iff_of_false (by decide) (by omega), fun _ => ⟨by omega, hcf, hff⟩⟩

/-- Settles O9. -/
theorem timerExpiry : Obligations.TimerExpiry :=
  fun now d start => ⟨Timer.expired_disarmed now d, Timer.expired_armed start now d⟩

/-- Settles O10. -/
theorem statusAndErrorCodes : Obligations.StatusAndErrorCodes := ⟨rfl, rfl⟩

/-- Settles O52: the power-on state is written out in `State.powerOn`. -/
theorem powerOnValues : Obligations.PowerOnValues :=
  fun _ => ⟨rfl, rfl, rfl, rfl, rfl, rfl, rfl, rfl, rfl, rfl⟩

/-- Settles O19: an answered `RESET` of a session is `session_reset()`, which is idempotent (`sessionReset_sessionReset_answer`). -/
theorem resetIdempotent : Obligations.ResetIdempotent := by
  intro s t u hc ht hu
  obtain ⟨a, ha⟩ := Option.isSome_iff_exists.mp hc
  obtain ⟨hp, -⟩ := execReset_next ht
  rw [exec_reset ha hp] at ht
  cases ht
  have hp' : ((sessionReset s).answer .ok).phase = .idle := hp
  have ha' : ((sessionReset s).answer .ok).addr = some a := ha
  rw [exec_reset ha' hp', sessionReset_sessionReset_answer] at hu
  cases hu
  rfl

/-- Settles O22: without a session the lifecycle guard answers for each of these commands (`whenConfigured_none`). -/
theorem unconfiguredCommandsIllegal : Obligations.UnconfiguredCommandsIllegal := by
  intro s m now ha hp
  have hanytime (o : Out) : whenConfigured s o = .next (s.answer .illegalCommand) := whenConfigured_none ha o
  have hbetween (o : Out) : betweenTicks s (whenConfigured s o) = .next (s.answer .illegalCommand) :=
    (betweenTicks_idle hp _).trans (hanytime o)
  simp only [List.forall_mem_cons]
  exact ⟨hanytime _, hanytime _, hanytime _, hbetween _, hbetween _, hanytime _, hbetween _, hbetween _, nofun⟩

/-- Settles O23: the guard of R16 and R323 refuses each of these commands while a tick runs (`betweenTicks_tick`). -/
theorem commandsDuringTickRefused : Obligations.CommandsDuringTickRefused := by
  intro s now v m f hp
  have hrefused (o : Out) : betweenTicks s o = .refused .commandDuringTick := betweenTicks_tick hp o
  simp only [List.forall_mem_cons, exec_createInstr]
  exact ⟨hrefused _, hrefused _, hrefused _, hrefused _, hrefused _, hrefused _, hrefused _, hrefused _, hrefused _,
    hrefused _, hrefused _, hrefused _, hrefused _, nofun⟩

/-- Settles O24, by the two outcomes of the timeout check. -/
theorem processStartsTick : Obligations.ProcessStartsTick := by
  intro s a now ha hp hnow
  rw [exec_process_next ha hp hnow]
  exact ⟨fun h => congrArg _ (startTick_timeout h), fun h => congrArg _ (startTick_noTimeout h)⟩

/-- Settles O25. -/
theorem decreasingTimeRefused : Obligations.DecreasingTimeRefused := by
  intro s a now ha hp hnow
  rw [exec_process ha hp, if_pos hnow]

end Sys2Proof

end

section
/-! PROOFS. The transmit micro-steps (43_transmit.md R220 to R238): the work each of them consumes, the handshake of the slot and the
timer with what is left after it, and the burst of Consecutive Frames. -/

namespace Sys2Proof.Machine

variable {s t : State} {a : Addr} {fc : FlowControl}

/-! ## The work of a transmit phase (R221) -/

/-- The part of the work that the transmit registers hold: a started transmission, and the bytes buffered. -/
def TxRegs.work (t : TxRegs) : Nat := (if t.state = .idle then 0 else 1) + t.buf.length

/-- The part of the work that the queue holds. -/
def queueWork (q : List TxMessage) : Nat := (q.map fun m => m.payload.length + 2).sum

theorem txWork_eq (s : State) : txWork s = (if s.fcRequest then 1 else 0) + s.tx.work + queueWork s.txQueue := by
  rw [txWork, TxRegs.work, queueWork, Nat.add_assoc (if s.fcRequest then 1 else 0)]

@[simp] theorem TxRegs.work_reset : TxRegs.reset.work = 0 := rfl

theorem TxRegs.work_of_active {r : TxRegs} (h : r.state ≠ .idle) : r.work = 1 + r.buf.length := by
  rw [TxRegs.work, if_neg h]

theorem TxRegs.work_le (r : TxRegs) : r.work ≤ 1 + r.buf.length := by
  rw [TxRegs.work]
  split <;> omega

theorem queueWork_cons (m : TxMessage) (q : List TxMessage) :
    queueWork (m :: q) = m.payload.length + 2 + queueWork q := by
  rw [queueWork, List.map_cons, List.sum_cons, queueWork]

/-- The handshake adds no work to the registers: a transmission goes on with its bytes, or ends. -/
theorem txHandleFc_work_le (fc : FlowControl) (s : State) : (txHandleFc fc s).tx.work ≤ s.tx.work := by
  obtain ⟨-, e⟩ | ⟨-, -, -, e⟩ | ⟨hs, -, -, e⟩ | ⟨-, -, err, e⟩ | ⟨hs, -, -, e⟩ | ⟨-, -, e⟩ := txHandleFc_cases fc s
    <;> rw [e]
  · exact Nat.le_refl _
  · rw [TxRegs.work_of_active hs]
    cases hst : s.tx.state with
    | idle => exact absurd hst hs
    | waitFc => rw [txCtsAccept_waitFc hst]; exact Nat.le_refl _
    | txCf => rw [txCtsAccept_txCf hst]; exact Nat.le_refl _
  · exact Nat.zero_le _
  · rw [TxRegs.work_of_active hs]; exact Nat.le_refl _
  · exact Nat.zero_le _

theorem txConsumeSlot_work_le (s : State) : (txConsumeSlot s).tx.work ≤ s.tx.work := by
  cases h : s.fcSlot with
  | none => rw [txConsumeSlot_none h]
  | some fc => rw [txConsumeSlot_some h]; exact txHandleFc_work_le fc _

theorem txTimeoutCheck_work_le (s : State) : (txTimeoutCheck s).tx.work ≤ s.tx.work := by
  obtain ⟨-, e⟩ | ⟨-, e⟩ := txTimeoutCheck_cases s <;> rw [e]
  exact Nat.zero_le _

/-- Starting a message buffers at most its payload. -/
theorem txStart_work_le (a : Addr) (msg : TxMessage) (s : State) :
    (txStart a msg s).tx.work ≤ s.tx.work + (msg.payload.length + 1) := by
  obtain ⟨-, e⟩ | ⟨-, -, e⟩ | ⟨-, e⟩ := txStart_cases a msg s <;> rw [e]
  · exact Nat.le_add_right _ _
  · refine Nat.le_trans (TxRegs.work_le _) ?_
    rw [txFirstFrame_tx, List.length_drop]
    omega
  · exact Nat.le_add_right _ _

/-- A Consecutive Frame takes at least one byte from the buffer, or ends the transmission. -/
theorem txSendCf_work_lt (a : Addr) (hs : s.tx.state = .txCf) : (txSendCf a s).tx.work < s.tx.work := by
  have hactive : s.tx.state ≠ .idle := by rw [hs]; decide
  rw [TxRegs.work_of_active hactive]
  obtain ⟨-, e⟩ | ⟨-, -, e⟩ | ⟨h1, hd, e⟩ := txSendCf_cases a s <;> rw [e]
  · simp
  · simp
  · have hlen := List.drop_eq_nil_iff.not.mp hd
    refine Nat.lt_of_le_of_lt (TxRegs.work_le _) ?_
    obtain ⟨-, -, e'⟩ | ⟨-, e'⟩ := txBlockEnd_cases (txSent a (capCf s.snap.llDataLength a.pfx.length).toNat s) <;> rw [e']
      <;> simp only [armTxFc_tx, txSent, List.length_drop] <;> omega

/-- A started message also gives up its place in the queue. -/
theorem txWork_txAdvance_lt (h : txAdvance a s = (t, true)) : txWork t < txWork s := by
  obtain ⟨msg, rest, -, hq, e⟩ | ⟨hs, -, e⟩ | ⟨-, e⟩ := txAdvance_cases a s <;> rw [e] at h <;> cases h
  · obtain ⟨-, -, hreq, -, hqueue⟩ := txStart_frame a msg { s with txQueue := rest }
    have hwork := txStart_work_le a msg { s with txQueue := rest }
    rw [txWork_eq, txWork_eq s, hreq, hqueue, hq, queueWork_cons]
    dsimp only at hwork ⊢
    omega
  · obtain ⟨-, -, hreq, -, hqueue⟩ := txSendCf_frame a s
    have hwork := txSendCf_work_lt a hs
    rw [txWork_eq, txWork_eq s, hreq, hqueue]
    omega

theorem txWork_txStep_lt (h : txStep a s = (t, true)) : txWork t < txWork s := by
  cases hr : s.fcRequest with
  | true =>
    rw [txStep_request hr] at h
    cases h
    rw [txWork_eq, txWork_eq s, hr]
    simp [sendOwnFc]
  | false =>
    rw [txStep_other hr] at h
    have hadvance := txWork_txAdvance_lt h
    have htimeout := txTimeoutCheck_work_le (txConsumeSlot s)
    have hslot := txConsumeSlot_work_le s
    rw [txWork_eq (txTimeoutCheck _), txTimeoutCheck_fcRequest, txConsumeSlot_fcRequest, txTimeoutCheck_txQueue,
      txConsumeSlot_txQueue] at hadvance
    rw [txWork_eq s]
    omega

/-! ## After the handshake (R223, R225, R229) -/

theorem State.InTransmit.of_txOnly (h : s.InTransmit a) (k : TxOnly s t) : t.InTransmit a := by
  obtain ⟨hp, ha, ht⟩ := h
  exact ⟨k.phase.trans hp, k.addr.trans ha, k.turn.trans ht⟩

/-- The state after the handshake: the slot, then the timeout. -/
def txHandshake (s : State) : State := txTimeoutCheck (txConsumeSlot s)

theorem noHandshake_txHandshake (hr : s.fcRequest = false) : (txHandshake s).NoHandshake := by
  refine ⟨?_, ?_, txTimeoutCheck_notExpired _⟩
  · rw [txHandshake, txTimeoutCheck_fcRequest, txConsumeSlot_fcRequest, hr]
  · rw [txHandshake, txTimeoutCheck_fcSlot, txConsumeSlot_fcSlot]

/-- The micro-step is that of the state after the handshake, which needs none itself. -/
theorem step_txHandshake (h : s.InTransmit a) (hr : s.fcRequest = false) (he : txHandshake s = t) :
    step s = step t ∧ t.InTransmit a ∧ t.NoHandshake := by
  subst he
  have ht : (txHandshake s).InTransmit a :=
    h.of_txOnly ((txConsumeSlot_frame s).1.trans (txTimeoutCheck_frame _).1)
  refine ⟨?_, ht, noHandshake_txHandshake hr⟩
  rw [step_transmit h, step_transmit ht, txRound, txStep_handshake hr, ← txHandshake, ← txRound]

/-- A transmitter with nothing to do after the handshake ends the tick (R223). -/
theorem step_noProgress (h : s.InTransmit a) (hn : s.NoHandshake)
    (hs : s.tx.state = .waitFc ∨ (s.tx.state = .idle ∧ s.txQueue = [])) : step s = .next (endTick s) := by
  apply step_of_txStep_false h
  rw [txStep_of_noHandshake hn, txAdvance]
  obtain hs | ⟨hs, hq⟩ := hs
  · rw [hs]
  · rw [hs, hq]

/-- The state of an aborted transmission, or of an Idle transmitter that reports a Flow Control: the slot empty, every transmit register
reset, and the report (R222, R225). -/
def txAborted (e : ErrorEvent) (s : State) : State :=
  { s with fcSlot := none, tx := TxRegs.reset, log := s.log ++ [.report e] }

/-- Once the slot has left the registers reset the timeout finds no timer. -/
theorem txHandshake_eq_of_reset (h : txConsumeSlot s = t) (ht : t.tx = TxRegs.reset) : txHandshake s = t := by
  rw [txHandshake, h]
  apply txTimeoutCheck_id
  rw [ht]
  rfl

theorem txHandshake_unexpected (hslot : s.fcSlot = some fc) (hs : s.tx = TxRegs.reset) :
    txHandshake s = txAborted (.unexpectedFlowControl fc.status) s := by
  refine txHandshake_eq_of_reset ?_ rfl
  rw [unexpectedFlowControlIgnored s fc hslot (by rw [hs]; rfl), txAborted, ← hs]

theorem txHandshake_overflow (hslot : s.fcSlot = some fc) (hf : fc.status = .ovflw) (hs : s.tx.state ≠ .idle) :
    txHandshake s = txAborted .flowControlOverflow s :=
  txHandshake_eq_of_reset (overflowHandled s fc hslot hf hs) rfl

theorem txHandshake_waitOverLimit (hslot : s.fcSlot = some fc) (hf : fc.status = .wait) (hs : s.tx.state ≠ .idle)
    (hmax : s.snap.maxWaitFrames ≤ s.tx.waitCnt) :
    txHandshake s = txAborted
      (if s.snap.maxWaitFrames = 0 then .unsupportedWaitFrame else .maximumWaitFramesReached) s := by
  obtain ⟨hunsupported, hover, -⟩ := waitHandled s fc hslot hf hs
  by_cases h0 : s.snap.maxWaitFrames = 0
  · rw [if_pos h0]; exact txHandshake_eq_of_reset (hunsupported h0) rfl
  · rw [if_neg h0]; exact txHandshake_eq_of_reset (hover h0 hmax) rfl

/-- An expired timer that the slot leaves expired aborts (R229). -/
theorem txHandshake_timeout {r : TxRegs} (hc : txConsumeSlot s = { s with fcSlot := none, tx := r })
    (he : r.fcTimer.expired s.now s.snap.rxFlowcontrolTimeout = true) :
    txHandshake s = txAborted .flowControlTimeout s := by
  rw [txHandshake, hc, txTimeoutCheck, if_pos he]
  rfl

/-- A late ContinueToSend counts for nothing, as an empty slot does (R228). -/
theorem txHandshake_late (hslot : s.fcSlot = none ∨ ∃ fc, s.fcSlot = some fc ∧ fc.status = .cts) (hs : s.tx.state ≠ .idle)
    (he : s.tx.fcTimer.expired s.now s.snap.rxFlowcontrolTimeout = true) :
    txHandshake s = txAborted .flowControlTimeout s := by
  refine txHandshake_timeout (r := s.tx) ?_ he
  obtain hnone | ⟨fc, hfc, hcts⟩ := hslot
  · rw [txConsumeSlot_none hnone, ← hnone]
  · obtain ⟨hlate, -, -⟩ := continueToSendHandled s fc hfc hcts hs
    exact hlate he

/-- A timer armed at this time has not run (R11). -/
theorem Timer.expired_armed_now {now d : Nat} : (Timer.armed now).expired now d = decide (d = 0) := by
  rw [Timer.expired, Int.sub_self, Bool.or_eq_left_iff_imp.mpr]
  intro h
  have := of_decide_eq_true h
  omega

/-- A Wait within its limit, even a late one, arms the timer again; with a timeout of 0 that is no help (R227, R229). -/
theorem txHandshake_wait (hslot : s.fcSlot = some fc) (hf : fc.status = .wait) (hs : s.tx.state ≠ .idle)
    (hlt : s.tx.waitCnt < s.snap.maxWaitFrames) :
    txHandshake s = if s.snap.rxFlowcontrolTimeout = 0 then txAborted .flowControlTimeout s else { s with
      fcSlot := none, tx := { s.tx with waitCnt := s.tx.waitCnt + 1, state := .waitFc, fcTimer := .armed s.now } } := by
  obtain ⟨-, -, haccepted⟩ := waitHandled s fc hslot hf hs
  have hc := haccepted (Nat.ne_zero_of_lt hlt) hlt
  by_cases h0 : s.snap.rxFlowcontrolTimeout = 0
  · rw [if_pos h0]
    exact txHandshake_timeout hc (by rw [Timer.expired_armed_now]; exact decide_eq_true h0)
  · rw [if_neg h0, txHandshake, hc]
    apply txTimeoutCheck_id
    rw [Timer.expired_armed_now]
    exact decide_eq_false h0

/-- A ContinueToSend that was waited for and is in time (R228). -/
theorem txHandshake_cts (hslot : s.fcSlot = some fc) (hf : fc.status = .cts) (hs : s.tx.state = .waitFc)
    (he : s.tx.fcTimer.expired s.now s.snap.rxFlowcontrolTimeout = false) :
    txHandshake s = { s with
      fcSlot := none
      tx := { s.tx with
        waitCnt := 0, fcTimer := .disarmed, peerBs := fc.bs, peerStminMs := fc.stminMs, blockCnt := 0
        stminTimer := .armed s.now, state := .txCf } } := by
  obtain ⟨-, haccepted, -⟩ := continueToSendHandled s fc hslot hf (by rw [hs]; decide)
  rw [txHandshake, haccepted he hs]
  rfl

/-! ## The burst of Consecutive Frames (R233, R239) -/

/-- A transmission whose Consecutive Frames all follow at once: block size and separation time 0, nothing to hand over, nothing queued,
and `cap` bytes a frame. -/
structure State.Bursts (s : State) (a : Addr) (cap : Nat) : Prop where
  transmit : s.InTransmit a
  request : s.fcRequest = false
  slot : s.fcSlot = none
  queue : s.txQueue = []
  sending : s.tx.state = .txCf
  fcTimer : s.tx.fcTimer = .disarmed
  peerBs : s.tx.peerBs = 0
  peerStminMs : s.tx.peerStminMs = 0
  stminTimer : s.tx.stminTimer.isArmed = true
  capacity : (cap : Int) = capCf s.snap.llDataLength a.pfx.length
  pos : 1 ≤ cap

section
variable {cap : Nat} (h : s.Bursts a cap)
include h

/-- Each frame of a burst is due (R233). -/
theorem State.Bursts.step_eq : step s = .next (txSendCf a s) := by
  have hn : s.NoHandshake := ⟨h.request, h.slot, by rw [h.fcTimer]; rfl⟩
  refine step_sendsCf h.transmit hn h.sending (txCfDue_iff.mpr (.inr ?_))
  rw [h.peerStminMs]
  exact Timer.expired_zero s.now h.stminTimer

theorem State.Bursts.sent : (txSent a cap s).Bursts a cap where
  transmit := h.transmit
  request := h.request
  slot := h.slot
  queue := h.queue
  sending := h.sending
  fcTimer := h.fcTimer
  peerBs := h.peerBs
  peerStminMs := h.peerStminMs
  stminTimer := rfl
  capacity := h.capacity
  pos := h.pos

end

theorem cfFrames_succ (a : Addr) (snap : Params) (cap n : Nat) (sn : Nibble) (m : List Byte) :
    cfFrames a snap cap (n + 1) sn m =
      makeFrame a snap a.txPhys (encodeCf a.pfx sn (m.take cap)) :: cfFrames a snap cap n (sn + 1) (m.drop cap) := rfl

/-- The `k + 1` frames that the rest of the message needs, and the step that ends the tick. -/
theorem run_burst {cap : Nat} (k : Nat) (h : s.Bursts a cap) (hlo : k * cap < s.tx.buf.length)
    (hhi : s.tx.buf.length ≤ (k + 1) * cap) :
    core.run (k + 2) s = .next (endTick { s with
      tx := TxRegs.reset, log := s.log ++ (cfFrames a s.snap cap (k + 1) s.tx.seq s.tx.buf).map .emit }) := by
  induction k generalizing s with
  | zero =>
    have hlast := txSendCf_last h.capacity h.pos (by omega)
    have ht : (txToIdle (txSent a cap s)).InTransmit a := h.transmit
    have hend := step_noProgress ht ⟨h.request, h.slot, rfl⟩ (.inr ⟨rfl, h.queue⟩)
    rw [run_succ 1 (h.step_eq.trans (congrArg _ hlast)), run_succ 0 hend]
    rfl
  | succ k ih =>
    rw [Nat.succ_mul] at hlo hhi
    have hmore := txSendCf_more h.capacity h.pos (by omega)
    rw [txBlockEnd_inside (.inl h.sent.peerBs)] at hmore
    have hlen : (txSent a cap s).tx.buf.length = s.tx.buf.length - cap := List.length_drop
    rw [run_succ (k + 2) (h.step_eq.trans (congrArg _ hmore)), ih h.sent (by omega) (by omega),
      cfFrames_succ a s.snap cap (k + 1), List.map_cons, List.append_cons]
    rfl

end Sys2Proof.Machine

namespace Sys2Proof

open Machine

/-- Settles O28. -/
theorem progressConsumesWork : Obligations.ProgressConsumesWork := fun _ _ _ h => txWork_txStep_lt h

/-- Settles O46: the frame of a micro-step is that of its stages (`txStep_frame`). -/
theorem transmitStepFrame : Obligations.TransmitStepFrame := by
  intro a s t b h
  obtain ⟨hframe, ⟨es, hes, hnone⟩, hqueue⟩ := txStep_frame a s
  rw [h] at hframe hes hqueue
  refine ⟨hframe.eq_with, hqueue, ?_⟩
  rw [hes, deliveriesOf_append, hnone, List.append_nil]

/-- Settles O58: whatever the slot holds, the step is that of the state after the handshake (`step_txHandshake`); the timeout decides
what that state is. -/
theorem handshakeThenStateMachine : Obligations.HandshakeThenStateMachine := by
  intro s a h
  refine ⟨fun hr t ht => ⟨fun hslot => ht.trans (txConsumeSlot_none hslot), fun he => ?_, fun he u hu => ?_⟩,
    step_noProgress h⟩
  · subst ht
    exact step_txHandshake h hr (txTimeoutCheck_id he)
  · subst ht hu
    refine step_txHandshake h hr ?_
    rw [txHandshake, txTimeoutCheck, if_pos he]
    rfl

/-- Settles O43: each clause names the state after the handshake, and there, with nothing queued, the tick ends (`step_noProgress`). -/
theorem flowControlTimeoutOrder : Obligations.FlowControlTimeoutOrder := by
  intro s a h hr hw hq he
  have hs : s.tx.state ≠ .idle := by rw [hw]; decide
  have habort {e : ErrorEvent} (ha : txHandshake s = txAborted e s) : step s = .next (endTick (txAborted e s)) := by
    obtain ⟨hstep, ht, hn⟩ := step_txHandshake h hr ha
    exact hstep.trans (step_noProgress ht hn (.inr ⟨rfl, hq⟩))
  refine ⟨fun hslot => habort (txHandshake_late hslot hs he), fun fc hfc hf hlt => ?_, fun fc hfc hf hmax => ?_,
    fun fc hfc hf => ?_⟩
  · have hwait := txHandshake_wait hfc hf hs hlt
    refine ⟨fun h0 => ?_, fun h0 => ?_⟩
    · rw [if_neg h0] at hwait
      obtain ⟨hstep, ht, hn⟩ := step_txHandshake h hr hwait
      exact hstep.trans (step_noProgress ht hn (.inl rfl))
    · rw [if_pos h0] at hwait
      exact habort hwait
  · exact habort (txHandshake_waitOverLimit hfc hf hs hmax)
  · exact habort (txHandshake_overflow hfc hf hs)

/-- Settles O59: the state after the handshake sends, and there `consecutiveFrameSent` says what the step does; its frame is due when the
separation time just armed is 0 or not looked at. -/
theorem continueToSendSendsAtOnce : Obligations.ContinueToSendSendsAtOnce := by
  intro s a fc cap h hr hfc hf hw he hcap h1 adopted sent
  obtain ⟨hstep, ht, hn⟩ := step_txHandshake h hr (txHandshake_cts hfc hf hw he)
  obtain ⟨hnot, -, hdue⟩ := consecutiveFrameSent _ a ht hn rfl
  rw [hstep]
  refine ⟨fun hsquash hms => hnot ?_, fun hready => ?_⟩
  · rintro (hsq | hexp)
    · exact nomatch hsquash.symm.trans hsq
    · exact Nat.ne_of_gt hms (of_decide_eq_true (Timer.expired_armed_now.symm.trans hexp))
  · have hexpired : s.snap.squashTiming = true ∨ (Timer.armed s.now).expired s.now fc.stminMs = true :=
      hready.imp id fun h0 => Timer.expired_armed_now.trans (decide_eq_true h0)
    obtain ⟨hlast, hend, hmore⟩ := hdue cap hexpired hcap h1
    refine ⟨hlast, fun hlen hbs => hend hlen ?_ ?_, fun hlen hbs => hmore hlen ?_⟩
    · show fc.bs ≠ 0
      rw [hbs]
      decide
    · show fc.bs.toNat ≤ 0 + 1
      rw [hbs]
      decide
    · show fc.bs = 0 ∨ 0 + 1 < fc.bs.toNat
      bv_omega

/-- Settles O60: in each case the handshake leaves the same aborted state (`txAborted`), and there the next message starts
(`queuedMessageStarted`). -/
theorem nextMessageStartsAtOnce : Obligations.NextMessageStartsAtOnce := by
  intro s a msg rest e h hr hq hcase
  have ha : txHandshake s = txAborted e s := by
    obtain ⟨hs, fc, hfc, rfl⟩ | ⟨hs, fc, hfc, ⟨hf, rfl⟩ | ⟨hf, hmax, rfl⟩⟩ | ⟨hs, he, rfl, hslot⟩ := hcase
    · exact txHandshake_unexpected hfc hs
    · exact txHandshake_overflow hfc hf hs
    · exact txHandshake_waitOverLimit hfc hf hs hmax
    · exact txHandshake_late hslot hs he
  obtain ⟨hstep, ht, hn⟩ := step_txHandshake h hr ha
  refine ⟨fun u hu => by subst hu; exact ⟨hstep, ht, hn⟩, fun hk hlen => ?_⟩
  obtain ⟨hsingle, -, -⟩ := queuedMessageStarted _ a msg rest ht hn rfl hq hlen
  rw [hstep, hsingle hk]
  simp only [txAborted, List.append_assoc, List.cons_append, List.nil_append]

/-- Settles O48: the first frame is due because the separation time is 0, each sent frame leaves a burst (`State.Bursts.sent`), and the
frames are counted by `run_burst`. -/
theorem burstSendsAllConsecutiveFrames : Obligations.BurstSendsAllConsecutiveFrames := by
  intro s a cap n h hn hs hq hfc hbs hst harmed hcap h1 hbuf hlo hhi
  obtain ⟨hreq, hslot, -⟩ := hn
  cases n with
  | zero => rw [Nat.zero_mul] at hhi; exact absurd (List.length_eq_zero_iff.mp (Nat.le_zero.mp hhi)) hbuf
  | succ k => exact run_burst k ⟨h, hreq, hslot, hq, hs, hfc, hbs, hst, harmed, hcap, h1⟩ hlo hhi

end Sys2Proof

end

section
/-! PROOFS. The whole message and the whole tick: the PDUs of a segmented message reassemble to it (42_receive.md R213), and the engine's
steps from `PROCESS` on are the tick of 44_host.md R271. -/

namespace Sys2Proof.Machine

/-! ## Reassembly (R196, R213, R239) -/

/-- The number of Consecutive Frames is the quotient rounded up (R174). -/
theorem ncf_bounds {ll p len : Nat} (h : frameKind ll p len = .multi) :
    ∃ k, ncf ll p len = k + 1 ∧ k * (capCf ll p).toNat < len - (capFf ll p).toNat
      ∧ len - (capFf ll p).toNat ≤ (k + 1) * (capCf ll p).toNat := by
  obtain ⟨h1, h0, hlt⟩ := frameKind_multi h
  obtain ⟨c, hc⟩ : ∃ c, (capCf ll p).toNat = c := ⟨_, rfl⟩
  obtain ⟨r, hr⟩ : ∃ r, len - (capFf ll p).toNat = r := ⟨_, rfl⟩
  have hc1 : 1 ≤ c := by omega
  have hr1 : 1 ≤ r := by omega
  have hdiv := Nat.div_add_mod (r + c - 1) c
  have hmod := Nat.mod_lt (r + c - 1) hc1
  have hpos : 1 ≤ (r + c - 1) / c := (Nat.one_le_div_iff hc1).mpr (by omega)
  obtain ⟨k, hk⟩ := Nat.exists_eq_add_of_le' hpos
  rw [hk, Nat.mul_comm, Nat.succ_mul] at hdiv
  rw [ncf, hc, hr]
  refine ⟨k, hk, by omega, ?_⟩
  rw [Nat.succ_mul]
  omega

/-- A reassembly of the message `m` of which `rest` is still missing. -/
structure State.Reassembles (s : State) (m rest : List Byte) (sn : Nibble) : Prop where
  state : s.rx.state = .waitCf
  buf : s.rx.buf ++ rest = m
  len : s.rx.len.toNat = m.length
  next : sn = s.rx.lastSeq + 1

section
variable {s : State} {m rest : List Byte} {sn : Nibble} {cap : Nat} (h : s.Reassembles m rest sn)
include h

/-- A chunk of what is missing is appended whole (R196). -/
theorem State.Reassembles.appended : rxAppended s.rx (rest.take cap) = s.rx.buf ++ rest.take cap := by
  have hlen := h.len
  rw [← h.buf, List.length_append] at hlen
  have hmin : min (s.rx.len.toNat - s.rx.buf.length) (rest.take cap).length = (rest.take cap).length := by
    rw [List.length_take]
    omega
  rw [rxAppended, hmin, List.take_length]

/-- The last chunk delivers the message (R196, R213). -/
theorem State.Reassembles.last (hcap : rest.length ≤ cap) :
    exec (.cf sn (rest.take cap)) s = .next (deliver m (rxToIdle s)) := by
  have happended := h.appended (cap := cap)
  rw [List.take_of_length_le hcap, h.buf] at happended
  rw [exec_cf, List.take_of_length_le hcap, rxCf_complete h.state h.next, happended]
  rw [happended, h.len]

/-- An earlier chunk leaves the rest missing, and nothing delivered or reported. -/
theorem State.Reassembles.more (hcap : cap < rest.length) :
    ∃ t, exec (.cf sn (rest.take cap)) s = .next t ∧ t.Reassembles m (rest.drop cap) (sn + 1) ∧ RxOnly s t
      ∧ t.rxQueue = s.rxQueue ∧ t.log = s.log := by
  have happended := h.appended (cap := cap)
  have hless : (rxAppended s.rx (rest.take cap)).length < s.rx.len.toNat := by
    rw [happended, h.len, ← h.buf, List.length_append, List.length_append, List.length_take]
    omega
  refine ⟨_, (exec_cf _ _ s).trans (congrArg _ (rxCf_more h.state h.next hless)), ?_,
    (rxAccepted_rxOnly _ _ _).trans (rxBlockStep_rxOnly _), rxBlockStep_rxQueue _, rxBlockStep_log _⟩
  constructor <;> rw [rxBlockStep_rx]
  · exact h.state
  · show rxAppended s.rx (rest.take cap) ++ rest.drop cap = m
    rw [happended, List.append_assoc, List.take_append_drop, h.buf]
  · exact h.len
  · rfl

end

/-- The Consecutive Frames of what is missing deliver the message once, and leave the receiver Idle. -/
theorem execAll_cfSegments {s : State} {m rest : List Byte} {sn : Nibble} {cap : Nat} (k : Nat)
    (h : s.Reassembles m rest sn) (hlo : k * cap < rest.length) (hhi : rest.length ≤ (k + 1) * cap)
    (hroom : s.rxQueue.length < s.cfg.rxqDepth) :
    ∃ t, execAll (cfSegments cap (k + 1) sn rest) s = .next t ∧ t.rxQueue = s.rxQueue ++ [m]
      ∧ t.log = s.log ++ [.deliver m] ∧ t.rx = RxRegs.reset ∧ t.fcRequest = false ∧ t.tx = s.tx := by
  induction k generalizing s rest sn with
  | zero =>
    refine ⟨deliver m (rxToIdle s), ?_, ?_⟩
    · simp only [cfSegments, execAll, h.last (by omega : rest.length ≤ cap)]
    · rw [deliver_room (s := rxToIdle s) hroom]
      exact ⟨rfl, rfl, rfl, rfl, rfl⟩
  | succ k ih =>
    rw [Nat.succ_mul] at hlo hhi
    obtain ⟨t, ht, hnext, honly, hqueue, hlog⟩ := h.more (by omega : cap < rest.length)
    obtain ⟨u, hu, hq, hl, hrx, hreq, htx⟩ := ih hnext (by rw [List.length_drop]; omega)
      (by rw [List.length_drop]; omega) (by rw [hqueue, honly.cfg]; exact hroom)
    refine ⟨u, ?_, by rw [hq, hqueue], by rw [hl, hlog], hrx, hreq, htx.trans honly.tx⟩
    rw [cfSegments, execAll, ht]
    exact hu

/-! ## The drain (R183) -/

section
variable {s : State} {a : Addr}

theorem rxDrain_nil (h : s.rxPort = []) : rxDrain a s = s := by rw [rxDrain, h, rxDrainFrom]

theorem rxDrain_cons {f : Frame} {rest : List Frame} (h : s.rxPort = f :: rest) :
    rxDrain a s = rxDrain a (rxFrame a { s with rxPort := rest } f) := by
  rw [rxDrain, h, rxDrainFrom, rxDrain, (rxFrame_rxOnly a { s with rxPort := rest } f).rxPort]

/-- The drain of a tick: the engine's steps, one a frame and one that ends it, are `rx_drain()` (R183, R184), which changes only what the
receive side may write and the port. -/
theorem run_drain (hp : s.phase = .drain) (ha : s.addr = some a) (ht : s.turn = [])
    (hduty : ∀ f ∈ s.rxPort, frameWithinDuty f = true) :
    core.run (s.rxPort.length + 1) s = .next { rxDrain a s with phase := .transmit }
      ∧ RxOnly { s with rxPort := [] } (rxDrain a s) := by
  obtain ⟨fs, hfs⟩ : ∃ fs, s.rxPort = fs := ⟨_, rfl⟩
  induction fs generalizing s with
  | nil =>
    rw [rxDrain_nil hfs, hfs]
    refine ⟨run_succ 0 (step_drained hp ha ht hfs), ?_⟩
    rw [← hfs]
    exact RxOnly.refl s
  | cons f rest ih =>
    rw [hfs] at hduty
    have hstep := step_receives ⟨hp, ha, ht, hfs, hduty f List.mem_cons_self⟩
    have hframe := rxFrame_rxOnly a { s with rxPort := rest } f
    obtain ⟨hrun, honly⟩ := ih (hframe.phase.trans hp) (hframe.addr.trans ha) (hframe.turn.trans ht)
      (by rw [hframe.rxPort]; exact fun g hg => hduty g (List.mem_cons_of_mem f hg)) hframe.rxPort
    rw [hframe.rxPort] at hrun
    rw [rxDrain_cons hfs, hfs, List.length_cons]
    refine ⟨(run_succ _ hstep).trans hrun, RxOnly.trans ?_ honly⟩
    exact { hframe with rxPort := rfl }

/-! ## The transmit phase (R220, R221) -/

/-- The rounds of a transmit phase are `tx_phase()`, and they end because each round of progress consumes work (`txWork_txStep_lt`). -/
theorem run_txPhase (fuel : Nat) (h : s.InTransmit a) (hfuel : txWork s < fuel) :
    ∃ k, k ≤ txWork s + 1 ∧ core.run k s = .next (endTick (txPhase a fuel s)) := by
  induction fuel generalizing s with
  | zero => exact absurd hfuel (Nat.not_lt_zero _)
  | succ fuel ih =>
    rcases hstep : txStep a s with ⟨t, b⟩
    cases b with
    | false =>
      refine ⟨1, by omega, ?_⟩
      rw [run_succ 0 (step_of_txStep_false h hstep), txPhase, hstep]
      rfl
    | true =>
      have hwork := txWork_txStep_lt hstep
      have ht : t.InTransmit a := by
        have hframe := (txStep_frame a s).1
        rw [hstep] at hframe
        exact h.of_txOnly hframe
      obtain ⟨k, hk, hrun⟩ := ih ht (by omega)
      refine ⟨k + 1, by omega, ?_⟩
      rw [run_succ k (step_of_txStep_true h hstep), hrun, txPhase, hstep]

/-- A drain and the transmit phase behind it. The receive side adds at most its own Flow Control to the work. -/
theorem run_drain_txPhase (hp : s.phase = .drain) (ha : s.addr = some a) (ht : s.turn = [])
    (hduty : ∀ f ∈ s.rxPort, frameWithinDuty f = true) {drained : State}
    (hd : drained = { rxDrain a s with phase := .transmit }) :
    ∃ k, k ≤ s.rxPort.length + txWork s + 3
      ∧ core.run k s = .next (endTick (txPhase a (txWork drained + 1) drained)) := by
  obtain ⟨hrun, honly⟩ := run_drain hp ha ht hduty
  rw [← hd] at hrun
  have htransmit : drained.InTransmit a := by
    subst hd
    exact ⟨rfl, honly.addr.trans ha, honly.turn.trans ht⟩
  have hwork : txWork drained ≤ txWork s + 1 := by
    have htx : drained.tx = s.tx := by subst hd; exact honly.tx
    have hqueue : drained.txQueue = s.txQueue := by subst hd; exact honly.txQueue
    rw [txWork_eq, txWork_eq s, htx, hqueue]
    split <;> omega
  obtain ⟨k, hk, hphase⟩ := run_txPhase _ htransmit (Nat.lt_succ_self _)
  exact ⟨s.rxPort.length + 1 + k, by omega, (run_add k hrun).trans hphase⟩

/-- What the start of a tick leaves to the drain (R271). -/
theorem startTick_drain {now : Nat} (ha : s.addr = some a) :
    (startTick now s).addr = some a ∧ (startTick now s).turn = s.turn ∧ (startTick now s).rxPort = s.rxPort := by
  have hframe := (rxTimeoutCheck_frame { s with now := now, snap := s.params }).1
  exact ⟨hframe.addr.trans ha, hframe.turn, hframe.rxPort⟩

end

/-- The state at a position of a tick that has so far found nothing to do. -/
def State.ticking (s : State) (now : Nat) (p : Phase) : State :=
  { s with now := now, snap := s.params, phase := p, driver := s.caller }

end Sys2Proof.Machine

namespace Sys2Proof

open Machine

/-- Settles O36: the frame of the receive side (`exec_pdu_frame`). -/
theorem receivedPduFrame : Obligations.ReceivedPduFrame := by
  intro i s t hi hx
  obtain ⟨honly, ⟨es, hes, hframes⟩, hqueue⟩ := exec_pdu_frame hi hx
  refine ⟨honly.eq_with, ?_, hqueue⟩
  rw [hes, framesOf_append, hframes, List.append_nil]

/-- Settles O37: the First Frame opens the reassembly of the message with its chunk (`State.Reassembles`), and the Consecutive Frames bring
the rest (`execAll_cfSegments`). -/
theorem segmentsReassemble : Obligations.SegmentsReassemble := by
  intro ll p m s hlen hk hs hroom
  obtain ⟨k, hncf, hlo, hhi⟩ := ncf_bounds hk
  have hff : exec (.ff (BitVec.ofNat 12 m.length) (m.take (capFf ll p).toNat)) s = .next (rxFfIdle _ _ s) :=
    congrArg _ (rxFf_idle hs _ _)
  have hmax : (BitVec.ofNat 12 m.length).toNat = m.length := by rw [BitVec.toNat_ofNat]; omega
  have hopened : (rxFfIdle (BitVec.ofNat 12 m.length) (m.take (capFf ll p).toNat) s).Reassembles m
      (m.drop (capFf ll p).toNat) 1 := ⟨rfl, List.take_append_drop _ m, hmax, rfl⟩
  rw [← List.length_drop] at hlo hhi
  obtain ⟨t, ht, hqueue, hlog, hrx, hreq, htx⟩ := execAll_cfSegments k hopened hlo hhi hroom
  have hlog' : t.log = s.log ++ [.deliver m] := hlog
  refine ⟨t, ?_, hqueue, ?_, ?_, hrx, hreq, htx⟩
  · rw [segments, hncf, execAll, hff]
    exact ht
  · rw [hlog', deliveriesOf_append, deliveriesOf_deliver]
  · rw [hlog', errorsOf_append, errorsOf_deliver, List.append_nil]

/-- Settles O26: `PROCESS` starts the tick, and the engine's steps run its drain and its transmit phase (`run_drain_txPhase`). -/
theorem processRunsWholeTick : Obligations.ProcessRunsWholeTick := by
  intro s a now ha hp ht hnow hduty
  obtain ⟨haddr, hturn, hport⟩ := startTick_drain (now := now) ha
  obtain ⟨k, -, hrun⟩ := run_drain_txPhase rfl haddr (hturn.trans ht) (by rw [hport]; exact hduty) rfl
  exact ⟨startTick now s, k, exec_process_next ha hp hnow, hrun, rfl⟩

/-- Settles O27, by the position of the tick engine. -/
theorem tickTerminates : Obligations.TickTerminates := by
  intro s a ha hne ht hduty
  cases hp : s.phase with
  | idle => exact absurd hp hne
  | drain =>
    obtain ⟨k, hk, hrun⟩ := run_drain_txPhase hp ha ht hduty rfl
    exact ⟨_, k, hrun, rfl, hk⟩
  | transmit =>
    obtain ⟨k, hk, hrun⟩ := run_txPhase _ ⟨hp, ha, ht⟩ (Nat.lt_succ_self _)
    exact ⟨_, k, hrun, rfl, by omega⟩

/-- Settles O29: the invariant leaves no timer, no request and no Flow Control to an Idle session, so the drain and the micro-step find
nothing to do. -/
theorem idleTickChangesNothing : Obligations.IdleTickChangesNothing := by
  intro s a now hinv ha hp ht hnow hrx htx hport hqueue
  refine ⟨startTick now s, exec_process_next ha hp hnow, ?_⟩
  have hreq : s.fcRequest = false := by
    cases hr : s.fcRequest with
    | false => rfl
    | true => exact nomatch hrx.symm.trans (hinv.request hr).1
  have hslot : s.fcSlot = none := by
    cases hs : s.fcSlot with
    | none => rfl
    | some fc => exact absurd hp (hinv.slot fc hs).1
  have hnoTimer (d : Nat) : s.tx.fcTimer.expired now d = false := by rw [hinv.tx.idle htx]; rfl
  have hstart : startTick now s = s.ticking now .drain := startTick_noTimeout (fun h => nomatch hrx.symm.trans h.1)
  have hdrained : step (s.ticking now .drain) = .next (s.ticking now .transmit) := step_drained rfl ha ht hport
  have hend : step (s.ticking now .transmit) = .next (endTick (s.ticking now .transmit)) :=
    step_noProgress ⟨rfl, ha, ht⟩ ⟨hreq, hslot, hnoTimer _⟩ (.inr ⟨htx, hqueue⟩)
  rw [hstart, run_succ 1 hdrained, run_succ 0 hend, run_zero, endTick, ← hp]
  rfl

end Sys2Proof

end
